-- ==== Sys2Proof/Word.lean ====
section
/-!
DEFINITION. The widths of the CHIP-8 core (00_scope.md R5, R7): every value of the hardware is an unsigned
number of one of these widths, and nothing is signed.
-/

namespace Sys2Proof

/-- An 8-bit value: a V register, a timer, a byte of memory, the immediate NN (R5, R61). -/
abbrev Byte := BitVec 8

/-- A 16-bit value: an instruction word, `pc`, `I`, a return-stack slot (R5, R60). -/
abbrev Word := BitVec 16

/-- A 4-bit value: a register selector X or Y, the count N, a key index (R61, R18). -/
abbrev Nibble := BitVec 4

/-- The 12-bit address field NNN (R61). -/
abbrev Addr := BitVec 12

/-- The 17 bits of detail the error latch holds (R21). -/
abbrev ErrInfo := BitVec 17

end Sys2Proof
end

