-- ==== Sys2Proof/Config.lean ====
section
/-!
DEFINITION. What is fixed for the machine: the constants of 00_scope.md R5, the open parameters of R6 as one record, and
the free byte that RND draws (R122, D5). The recommended values of the parameters stand in Machine/Defaults.lean.
-/

namespace Sys2Proof

/-- The open parameters of R6 (decisions D2, D3, D4 leave them OPEN): four booleans and the 80 font bytes, 16 glyphs of
5 bytes (R24). The record never changes after it is chosen (R26); a statement over every state is a statement over every
configuration. -/
structure Config where
  /-- `shift_uses_vy`: the source of SHR and SHL is V[Y] (true) or V[X] (false) (R119, R121). -/
  shiftUsesVy : Bool
  /-- `load_store_increments_i`: LD [I],Vx and LD Vx,[I] add X+1 to I afterwards (R134, R135). -/
  loadStoreIncrementsI : Bool
  /-- `add_i_sets_vf`: ADD I,Vx writes VF with the 12-bit overflow (R131). -/
  addISetsVf : Bool
  /-- `address_wrap`: an address at or above 4096 is reduced modulo 4096 (true) or raises OutOfBoundsAddress (R42). -/
  addressWrap : Bool
  /-- `FONT`: glyph g is `font[g]`, its five rows from the top (R24). -/
  font : Vector (Vector Byte 5) 16
  deriving DecidableEq, Repr

/-- The byte the n-th RND draws: a FREE VALUE, any byte 0x00 to 0xFF, under no law (R122, D5). It has no body, so a
statement holds for every value of it. -/
opaque Config.randomByte : Nat → Byte

/-- `MEM_SIZE` (R5). -/
def memSize : Nat := 4096

/-- `FONT_SIZE`: the font occupies 0x000 to 0x04F, so `FONT_BASE` is 0x000 (R5). -/
def fontSize : Nat := 80

/-- `FONT_BASE` (R5). -/
def fontBase : Nat := 0x000

/-- `PROG_BASE`: the load address of the program and the reset value of pc (R5). -/
def progBase : Nat := 0x200

/-- `ROM_MAX`: the longest ROM accepted, 4096 - 512 bytes (R5). -/
def romMax : Nat := 3584

/-- `STACK_DEPTH` (R5). -/
def stackDepth : Nat := 16

/-- `DISP_W` (R5). -/
def dispW : Nat := 64

/-- `DISP_H` (R5). -/
def dispH : Nat := 32

end Sys2Proof
end

