-- ==== Sys2Proof/Syntax.lean ====
section
/-!
DEFINITION. The 34 instructions of the opcode map (30_encoding.md R65), one constructor per row, in the table's order,
with the fields of R61 as operands: x and y are register selectors, n the count, nn the 8-bit immediate, nnn the
12-bit address. Every value of every operand is legal (R71).
-/

namespace Sys2Proof

/-- One CHIP-8 instruction, decoded (R65). -/
inductive Instr where
  /-- 00E0 `CLS` (R140). -/
  | cls
  /-- 00EE `RET` (R100). -/
  | ret
  /-- 1NNN `JP addr` (R101). -/
  | jpAddr (nnn : Addr)
  /-- 2NNN `CALL addr` (R102). -/
  | callAddr (nnn : Addr)
  /-- 3XNN `SE Vx,byte` (R103). -/
  | seVxByte (x : Nibble) (nn : Byte)
  /-- 4XNN `SNE Vx,byte` (R104). -/
  | sneVxByte (x : Nibble) (nn : Byte)
  /-- 5XY0 `SE Vx,Vy` (R105). -/
  | seVxVy (x y : Nibble)
  /-- 6XNN `LD Vx,byte` (R110). -/
  | ldVxByte (x : Nibble) (nn : Byte)
  /-- 7XNN `ADD Vx,byte` (R111). -/
  | addVxByte (x : Nibble) (nn : Byte)
  /-- 8XY0 `LD Vx,Vy` (R112). -/
  | ldVxVy (x y : Nibble)
  /-- 8XY1 `OR Vx,Vy` (R113). -/
  | orVxVy (x y : Nibble)
  /-- 8XY2 `AND Vx,Vy` (R114). -/
  | andVxVy (x y : Nibble)
  /-- 8XY3 `XOR Vx,Vy` (R115). -/
  | xorVxVy (x y : Nibble)
  /-- 8XY4 `ADD Vx,Vy` (R116). -/
  | addVxVy (x y : Nibble)
  /-- 8XY5 `SUB Vx,Vy` (R117). -/
  | subVxVy (x y : Nibble)
  /-- 8XY6 `SHR Vx,Vy` (R119). -/
  | shrVxVy (x y : Nibble)
  /-- 8XY7 `SUBN Vx,Vy` (R120). -/
  | subnVxVy (x y : Nibble)
  /-- 8XYE `SHL Vx,Vy` (R121). -/
  | shlVxVy (x y : Nibble)
  /-- 9XY0 `SNE Vx,Vy` (R106). -/
  | sneVxVy (x y : Nibble)
  /-- ANNN `LD I,addr` (R130). -/
  | ldIAddr (nnn : Addr)
  /-- BNNN `JP V0,addr` (R107). -/
  | jpV0Addr (nnn : Addr)
  /-- CXNN `RND Vx,byte` (R122). -/
  | rndVxByte (x : Nibble) (nn : Byte)
  /-- DXYN `DRW Vx,Vy,N` (R141). -/
  | drwVxVyN (x y n : Nibble)
  /-- EX9E `SKP Vx` (R150). -/
  | skpVx (x : Nibble)
  /-- EXA1 `SKNP Vx` (R151). -/
  | sknpVx (x : Nibble)
  /-- FX07 `LD Vx,DT` (R152). -/
  | ldVxDt (x : Nibble)
  /-- FX0A `LD Vx,K` (R153). -/
  | ldVxK (x : Nibble)
  /-- FX15 `LD DT,Vx` (R154). -/
  | ldDtVx (x : Nibble)
  /-- FX18 `LD ST,Vx` (R155). -/
  | ldStVx (x : Nibble)
  /-- FX1E `ADD I,Vx` (R131). -/
  | addIVx (x : Nibble)
  /-- FX29 `LD F,Vx` (R132). -/
  | ldFVx (x : Nibble)
  /-- FX33 `LD B,Vx` (R133). -/
  | ldBVx (x : Nibble)
  /-- FX55 `LD [I],Vx` (R134). -/
  | ldMemVx (x : Nibble)
  /-- FX65 `LD Vx,[I]` (R135). -/
  | ldVxMem (x : Nibble)
  deriving DecidableEq, Repr

end Sys2Proof
end

