-- ==== Sys2Proof/WellFormed.lean ====
section
/-!
DEFINITION. What is well formed: an instruction word is legal when a row of the opcode map selects it (30_encoding.md
R64, R65), an instruction is well formed when its row is in the map, and a ROM is loadable when it fits (R191). The
operand types carry exactly the widths of R61 and no operand value is reserved (R71), so an instruction has no further
check on its operands.
-/

namespace Sys2Proof

/-- One row of the opcode map: the instruction is selected when `word &&& mask = value` (R65). -/
structure Row where
  mask : Word
  value : Word
  deriving DecidableEq, Repr

/-- The row of an instruction: the mask and match columns of R65. -/
def Instr.row : Instr → Row
  | .cls => ⟨0xFFFF#16, 0x00E0#16⟩
  | .ret => ⟨0xFFFF#16, 0x00EE#16⟩
  | .jpAddr _ => ⟨0xF000#16, 0x1000#16⟩
  | .callAddr _ => ⟨0xF000#16, 0x2000#16⟩
  | .seVxByte _ _ => ⟨0xF000#16, 0x3000#16⟩
  | .sneVxByte _ _ => ⟨0xF000#16, 0x4000#16⟩
  | .seVxVy _ _ => ⟨0xF00F#16, 0x5000#16⟩
  | .ldVxByte _ _ => ⟨0xF000#16, 0x6000#16⟩
  | .addVxByte _ _ => ⟨0xF000#16, 0x7000#16⟩
  | .ldVxVy _ _ => ⟨0xF00F#16, 0x8000#16⟩
  | .orVxVy _ _ => ⟨0xF00F#16, 0x8001#16⟩
  | .andVxVy _ _ => ⟨0xF00F#16, 0x8002#16⟩
  | .xorVxVy _ _ => ⟨0xF00F#16, 0x8003#16⟩
  | .addVxVy _ _ => ⟨0xF00F#16, 0x8004#16⟩
  | .subVxVy _ _ => ⟨0xF00F#16, 0x8005#16⟩
  | .shrVxVy _ _ => ⟨0xF00F#16, 0x8006#16⟩
  | .subnVxVy _ _ => ⟨0xF00F#16, 0x8007#16⟩
  | .shlVxVy _ _ => ⟨0xF00F#16, 0x800E#16⟩
  | .sneVxVy _ _ => ⟨0xF00F#16, 0x9000#16⟩
  | .ldIAddr _ => ⟨0xF000#16, 0xA000#16⟩
  | .jpV0Addr _ => ⟨0xF000#16, 0xB000#16⟩
  | .rndVxByte _ _ => ⟨0xF000#16, 0xC000#16⟩
  | .drwVxVyN _ _ _ => ⟨0xF000#16, 0xD000#16⟩
  | .skpVx _ => ⟨0xF0FF#16, 0xE09E#16⟩
  | .sknpVx _ => ⟨0xF0FF#16, 0xE0A1#16⟩
  | .ldVxDt _ => ⟨0xF0FF#16, 0xF007#16⟩
  | .ldVxK _ => ⟨0xF0FF#16, 0xF00A#16⟩
  | .ldDtVx _ => ⟨0xF0FF#16, 0xF015#16⟩
  | .ldStVx _ => ⟨0xF0FF#16, 0xF018#16⟩
  | .addIVx _ => ⟨0xF0FF#16, 0xF01E#16⟩
  | .ldFVx _ => ⟨0xF0FF#16, 0xF029#16⟩
  | .ldBVx _ => ⟨0xF0FF#16, 0xF033#16⟩
  | .ldMemVx _ => ⟨0xF0FF#16, 0xF055#16⟩
  | .ldVxMem _ => ⟨0xF0FF#16, 0xF065#16⟩

/-- The rows whose mask is the whole word or the top nibble (R65). -/
def opcodeMapWide : List Row :=
  [⟨0xFFFF#16, 0x00E0#16⟩, ⟨0xFFFF#16, 0x00EE#16⟩, ⟨0xF000#16, 0x1000#16⟩, ⟨0xF000#16, 0x2000#16⟩,
   ⟨0xF000#16, 0x3000#16⟩, ⟨0xF000#16, 0x4000#16⟩, ⟨0xF000#16, 0x6000#16⟩, ⟨0xF000#16, 0x7000#16⟩,
   ⟨0xF000#16, 0xA000#16⟩, ⟨0xF000#16, 0xB000#16⟩, ⟨0xF000#16, 0xC000#16⟩, ⟨0xF000#16, 0xD000#16⟩]

/-- The rows of format XY (R65). -/
def opcodeMapXY : List Row :=
  [⟨0xF00F#16, 0x5000#16⟩, ⟨0xF00F#16, 0x8000#16⟩, ⟨0xF00F#16, 0x8001#16⟩, ⟨0xF00F#16, 0x8002#16⟩,
   ⟨0xF00F#16, 0x8003#16⟩, ⟨0xF00F#16, 0x8004#16⟩, ⟨0xF00F#16, 0x8005#16⟩, ⟨0xF00F#16, 0x8006#16⟩,
   ⟨0xF00F#16, 0x8007#16⟩, ⟨0xF00F#16, 0x800E#16⟩, ⟨0xF00F#16, 0x9000#16⟩]

/-- The rows of format X (R65). -/
def opcodeMapX : List Row :=
  [⟨0xF0FF#16, 0xE09E#16⟩, ⟨0xF0FF#16, 0xE0A1#16⟩, ⟨0xF0FF#16, 0xF007#16⟩, ⟨0xF0FF#16, 0xF00A#16⟩,
   ⟨0xF0FF#16, 0xF015#16⟩, ⟨0xF0FF#16, 0xF018#16⟩, ⟨0xF0FF#16, 0xF01E#16⟩, ⟨0xF0FF#16, 0xF029#16⟩,
   ⟨0xF0FF#16, 0xF033#16⟩, ⟨0xF0FF#16, 0xF055#16⟩, ⟨0xF0FF#16, 0xF065#16⟩]

/-- The opcode map: 34 rows (R65). -/
def opcodeMap : List Row := opcodeMapWide ++ opcodeMapXY ++ opcodeMapX

/-- A word is selected by a row when it agrees with it under the mask (R64). -/
def Row.selects (r : Row) (w : Word) : Bool := w &&& r.mask == r.value

/-- A word is a legal instruction word when some row selects it; every other word is an invalid opcode (R64, R70). -/
def legalWord (w : Word) : Bool := opcodeMap.any (fun r => r.selects w)

/-- An instruction is well formed when its row is a row of the opcode map (R65, R71). -/
def Instr.wellFormed (i : Instr) : Bool := opcodeMap.contains i.row

/-- A ROM is loadable when it has at most 3584 bytes (R191). -/
def romFits (rom : List Byte) : Bool := decide (rom.length ≤ romMax)

end Sys2Proof
end

