-- ==== Sys2Proof/Decode.lean ====
section
/-!
DEFINITION. The decoder (30_encoding.md R61, R64, R65, R70, R75) and, after it, the encoder, each written from the
encoding tables of the spec. Decoding is total: every byte sequence gives an instruction or a named reason for none.
-/

namespace Sys2Proof

/-! ## Fields of an instruction word (R61) -/

/-- OP, bits [15:12]. -/
def opField (w : Word) : Nibble := w.extractLsb' 12 4
/-- X, bits [11:8]. -/
def xField (w : Word) : Nibble := w.extractLsb' 8 4
/-- Y, bits [7:4]. -/
def yField (w : Word) : Nibble := w.extractLsb' 4 4
/-- N, bits [3:0]. -/
def nField (w : Word) : Nibble := w.extractLsb' 0 4
/-- NN, bits [7:0]. -/
def nnField (w : Word) : Byte := w.extractLsb' 0 8
/-- NNN, bits [11:0]. -/
def nnnField (w : Word) : Addr := w.extractLsb' 0 12

/-- Two bytes as a word, the first the more significant (R43, R60). -/
def joinBytes (hi lo : Byte) : Word := hi ++ lo
/-- The more significant byte of a word. -/
def hiByte (w : Word) : Byte := w.extractLsb' 8 8
/-- The less significant byte of a word. -/
def loByte (w : Word) : Byte := w.extractLsb' 0 8

/-! ## Decoding -/

/-- The six groups of invalid words, one for each row of R70's table. -/
inductive InvalidClass where
  /-- 0x0000 to 0x0FFF except 0x00E0 and 0x00EE. -/
  | op0
  /-- 0x5XYN with N not 0. -/
  | op5
  /-- 0x8XYN with N 8 to 0xD or 0xF. -/
  | op8
  /-- 0x9XYN with N not 0. -/
  | op9
  /-- 0xEXNN with NN not 0x9E or 0xA1. -/
  | opE
  /-- 0xFXNN with NN none of the nine. -/
  | opF
  deriving DecidableEq, Repr

/-- Why some bytes give no instruction. -/
inductive DecodeError where
  /-- Fewer than two bytes are left: every instruction is one 16-bit word (R60). -/
  | truncated
  /-- The word is an invalid opcode (R70): the step executes it as a reported no-op (R164). -/
  | invalid (group : InvalidClass) (word : Word)
  deriving DecidableEq, Repr

/-- OP = 0x0: the whole word decides (R64). -/
def decodeOp0 (w : Word) : Except DecodeError Instr :=
  if w = 0x00E0#16 then .ok .cls
  else if w = 0x00EE#16 then .ok .ret
  else .error (.invalid .op0 w)

/-- OP = 0x8: N decides (R64). -/
def decodeOp8 (w : Word) : Except DecodeError Instr :=
  match (nField w).toNat with
  | 0x0 => .ok (.ldVxVy (xField w) (yField w))
  | 0x1 => .ok (.orVxVy (xField w) (yField w))
  | 0x2 => .ok (.andVxVy (xField w) (yField w))
  | 0x3 => .ok (.xorVxVy (xField w) (yField w))
  | 0x4 => .ok (.addVxVy (xField w) (yField w))
  | 0x5 => .ok (.subVxVy (xField w) (yField w))
  | 0x6 => .ok (.shrVxVy (xField w) (yField w))
  | 0x7 => .ok (.subnVxVy (xField w) (yField w))
  | 0xE => .ok (.shlVxVy (xField w) (yField w))
  | _ => .error (.invalid .op8 w)

/-- OP = 0xE: NN decides (R64). -/
def decodeOpE (w : Word) : Except DecodeError Instr :=
  if nnField w = 0x9E#8 then .ok (.skpVx (xField w))
  else if nnField w = 0xA1#8 then .ok (.sknpVx (xField w))
  else .error (.invalid .opE w)

/-- OP = 0xF: NN decides (R64). -/
def decodeOpF (w : Word) : Except DecodeError Instr :=
  if nnField w = 0x07#8 then .ok (.ldVxDt (xField w))
  else if nnField w = 0x0A#8 then .ok (.ldVxK (xField w))
  else if nnField w = 0x15#8 then .ok (.ldDtVx (xField w))
  else if nnField w = 0x18#8 then .ok (.ldStVx (xField w))
  else if nnField w = 0x1E#8 then .ok (.addIVx (xField w))
  else if nnField w = 0x29#8 then .ok (.ldFVx (xField w))
  else if nnField w = 0x33#8 then .ok (.ldBVx (xField w))
  else if nnField w = 0x55#8 then .ok (.ldMemVx (xField w))
  else if nnField w = 0x65#8 then .ok (.ldVxMem (xField w))
  else .error (.invalid .opF w)

/-- The decoder: every word gives one of the 34 instructions with its fields, or the invalid group it belongs to
(R64, R75). It reads nothing but the word. -/
def decodeWord (w : Word) : Except DecodeError Instr :=
  match (opField w).toNat with
  | 0x0 => decodeOp0 w
  | 0x1 => .ok (.jpAddr (nnnField w))
  | 0x2 => .ok (.callAddr (nnnField w))
  | 0x3 => .ok (.seVxByte (xField w) (nnField w))
  | 0x4 => .ok (.sneVxByte (xField w) (nnField w))
  | 0x5 => if nField w = 0x0#4 then .ok (.seVxVy (xField w) (yField w)) else .error (.invalid .op5 w)
  | 0x6 => .ok (.ldVxByte (xField w) (nnField w))
  | 0x7 => .ok (.addVxByte (xField w) (nnField w))
  | 0x8 => decodeOp8 w
  | 0x9 => if nField w = 0x0#4 then .ok (.sneVxVy (xField w) (yField w)) else .error (.invalid .op9 w)
  | 0xA => .ok (.ldIAddr (nnnField w))
  | 0xB => .ok (.jpV0Addr (nnnField w))
  | 0xC => .ok (.rndVxByte (xField w) (nnField w))
  | 0xD => .ok (.drwVxVyN (xField w) (yField w) (nField w))
  | 0xE => decodeOpE w
  | _ => decodeOpF w

/-- Decoding from bytes, most significant byte first (R43, R60): the instruction and the bytes after it. -/
def decodeBytes : List Byte → Except DecodeError (Instr × List Byte)
  | hi :: lo :: rest =>
    match decodeWord (joinBytes hi lo) with
    | .ok i => .ok (i, rest)
    | .error e => .error e
  | _ => .error .truncated

/-- What the decoder reads from an instruction whose bits are `w`, numbered as spec/opcode_table.json numbers them: every
row has one 16-bit word, and bits above `nbits` are 0. -/
def decodeTableWord (nbits w : Nat) : Option Instr :=
  let word : Word := BitVec.ofNat 16 (w % 2 ^ nbits)
  match decodeBytes [hiByte word, loByte word] with
  | .ok (i, _) => some i
  | .error _ => none

/-! ## Encoding (R62, R65) -/

/-- Format NNN: OP, then the address. -/
def packNNN (op : Nibble) (nnn : Addr) : Word := op ++ nnn
/-- Format XNN: OP, X, then the immediate. -/
def packXNN (op x : Nibble) (nn : Byte) : Word := op ++ (x ++ nn)
/-- Formats XY and XYN: four nibbles. -/
def packXYN (op x y n : Nibble) : Word := op ++ (x ++ (y ++ n))

/-- The word of an instruction (R65). -/
def encode : Instr → Word
  | .cls => 0x00E0#16
  | .ret => 0x00EE#16
  | .jpAddr nnn => packNNN 0x1#4 nnn
  | .callAddr nnn => packNNN 0x2#4 nnn
  | .seVxByte x nn => packXNN 0x3#4 x nn
  | .sneVxByte x nn => packXNN 0x4#4 x nn
  | .seVxVy x y => packXYN 0x5#4 x y 0x0#4
  | .ldVxByte x nn => packXNN 0x6#4 x nn
  | .addVxByte x nn => packXNN 0x7#4 x nn
  | .ldVxVy x y => packXYN 0x8#4 x y 0x0#4
  | .orVxVy x y => packXYN 0x8#4 x y 0x1#4
  | .andVxVy x y => packXYN 0x8#4 x y 0x2#4
  | .xorVxVy x y => packXYN 0x8#4 x y 0x3#4
  | .addVxVy x y => packXYN 0x8#4 x y 0x4#4
  | .subVxVy x y => packXYN 0x8#4 x y 0x5#4
  | .shrVxVy x y => packXYN 0x8#4 x y 0x6#4
  | .subnVxVy x y => packXYN 0x8#4 x y 0x7#4
  | .shlVxVy x y => packXYN 0x8#4 x y 0xE#4
  | .sneVxVy x y => packXYN 0x9#4 x y 0x0#4
  | .ldIAddr nnn => packNNN 0xA#4 nnn
  | .jpV0Addr nnn => packNNN 0xB#4 nnn
  | .rndVxByte x nn => packXNN 0xC#4 x nn
  | .drwVxVyN x y n => packXYN 0xD#4 x y n
  | .skpVx x => packXNN 0xE#4 x 0x9E#8
  | .sknpVx x => packXNN 0xE#4 x 0xA1#8
  | .ldVxDt x => packXNN 0xF#4 x 0x07#8
  | .ldVxK x => packXNN 0xF#4 x 0x0A#8
  | .ldDtVx x => packXNN 0xF#4 x 0x15#8
  | .ldStVx x => packXNN 0xF#4 x 0x18#8
  | .addIVx x => packXNN 0xF#4 x 0x1E#8
  | .ldFVx x => packXNN 0xF#4 x 0x29#8
  | .ldBVx x => packXNN 0xF#4 x 0x33#8
  | .ldMemVx x => packXNN 0xF#4 x 0x55#8
  | .ldVxMem x => packXNN 0xF#4 x 0x65#8

/-- The two bytes of an instruction, as memory holds them (R43). -/
def encodeBytes (i : Instr) : List Byte := [hiByte (encode i), loByte (encode i)]

end Sys2Proof
end

