-- ==== Sys2Proof/Machine/Defaults.lean ====
section
/-!
DEFINITION. The recommended values of the open parameters (00_scope.md R6, decisions D2, D3, D4): all four booleans
false, and the font table of 10_state.md R24. They are the spec's recommendation, not the source's words (log entries 1
and 2); a state may carry any other configuration.
-/

namespace Sys2Proof.Machine

/-- The default font (R24, GK1). PRESUMED: the bytes are general knowledge, the source prints none (log entry 2). -/
def defaultFont : Vector (Vector Byte 5) 16 :=
  #v[#v[0xF0#8, 0x90#8, 0x90#8, 0x90#8, 0xF0#8],  -- 0
     #v[0x20#8, 0x60#8, 0x20#8, 0x20#8, 0x70#8],  -- 1
     #v[0xF0#8, 0x10#8, 0xF0#8, 0x80#8, 0xF0#8],  -- 2
     #v[0xF0#8, 0x10#8, 0xF0#8, 0x10#8, 0xF0#8],  -- 3
     #v[0x90#8, 0x90#8, 0xF0#8, 0x10#8, 0x10#8],  -- 4
     #v[0xF0#8, 0x80#8, 0xF0#8, 0x10#8, 0xF0#8],  -- 5
     #v[0xF0#8, 0x80#8, 0xF0#8, 0x90#8, 0xF0#8],  -- 6
     #v[0xF0#8, 0x10#8, 0x20#8, 0x40#8, 0x40#8],  -- 7
     #v[0xF0#8, 0x90#8, 0xF0#8, 0x90#8, 0xF0#8],  -- 8
     #v[0xF0#8, 0x90#8, 0xF0#8, 0x10#8, 0xF0#8],  -- 9
     #v[0xF0#8, 0x90#8, 0xF0#8, 0x90#8, 0x90#8],  -- A
     #v[0xE0#8, 0x90#8, 0xE0#8, 0x90#8, 0xE0#8],  -- B
     #v[0xF0#8, 0x80#8, 0x80#8, 0x80#8, 0xF0#8],  -- C
     #v[0xE0#8, 0x90#8, 0x90#8, 0x90#8, 0xE0#8],  -- D
     #v[0xF0#8, 0x80#8, 0xF0#8, 0x80#8, 0xF0#8],  -- E
     #v[0xF0#8, 0x80#8, 0xF0#8, 0x80#8, 0x80#8]]  -- F

/-- The recommended configuration (R6). DESIGN CHOICE: the source gives no defaults (log entry 1). -/
def defaultConfig : Config where
  shiftUsesVy := false
  loadStoreIncrementsI := false
  addISetsVf := false
  addressWrap := false
  font := defaultFont

end Sys2Proof.Machine
end

