-- ==== Sys2Proof/Machine/State.lean ====
section
/-!
DEFINITION. The state of the core (10_state.md R10 to R23), the reasons a step can stop, and the state after reset (R28,
R190). The fields `cfg`, `draws` and `effects` are the model's own (log entries 1, 3, 4); every other field is the spec's.
-/

namespace Sys2Proof.Machine

/-- Main memory: the bytes that differ from their reset contents, as address and byte, addresses strictly rising (R19).
An address not listed reads as `Memory.initial` (Ops.lean). -/
abbrev Memory := List Host.Cell

/-- The run state (R20). -/
inductive RunState where
  /-- Instructions are fetched and executed. -/
  | running
  /-- Suspended by the host's PAUSE (R88). -/
  | paused
  /-- Suspended by `LD Vx,K` until a key goes down (R153). -/
  | waitingForKey
  /-- Ended by the host's QUIT; terminal (R90). -/
  | quit
  /-- Ended by a fatal error; terminal (R165). -/
  | error
  deriving DecidableEq, Repr

/-- The fatal errors (R160, codes 1 to 3). -/
inductive FatalError where
  /-- CALL with the stack full (R161). -/
  | stackOverflow
  /-- RET with the stack empty (R162). -/
  | stackUnderflow
  /-- A memory address above 4095 without address_wrap (R163). -/
  | outOfBoundsAddress
  deriving DecidableEq, Repr

/-- The outputs one STEP produces beside its state change (R82). -/
structure StepEffects where
  /-- The step executed CLS or DRW without a fatal error. -/
  displayDirty : Bool
  /-- The step executed LD ST,Vx and the sound level changed to this. -/
  soundChanged : Option Bool
  /-- The step fetched this invalid word. -/
  invalidOpcode : Option Word
  /-- The step raised this fatal error, or found the core in Error with it. -/
  error : Option (FatalError × ErrInfo)
  deriving DecidableEq, Repr

/-- No effect at all (R82, last sentence; R86). -/
def noEffects : StepEffects := ⟨false, none, none, none⟩

/-- The state of the core: one record, plain data (R27). -/
structure State where
  /-- V0 to VF (R10); VF is the flag (R11). -/
  v : Vector Byte 16
  /-- The index register I (R13). -/
  i : Word
  /-- The program counter (R12). -/
  pc : Word
  /-- The sixteen return-stack slots (R14). -/
  stack : Vector Word 16
  /-- The stack depth, 0 to 16 (R14). -/
  sp : Fin 17
  /-- The delay timer (R15). -/
  dt : Byte
  /-- The sound timer (R16). -/
  st : Byte
  /-- The display, pixel (x, y) at bit y * 64 + x (R17, D30). -/
  disp : BitVec 2048
  /-- Main memory (R19). -/
  mem : Memory
  /-- The key latch, true for a key that is down (R18). -/
  keys : Vector Bool 16
  /-- The run state (R20). -/
  runState : RunState
  /-- The error latch's kind, none for no error (R21). -/
  errKind : Option FatalError
  /-- The error latch's detail (R21). -/
  errInfo : ErrInfo
  /-- The register that `LD Vx,K` waits to write (R22). -/
  waitReg : Nibble
  /-- The key-down transition captured and not yet consumed (R23). -/
  keyEvent : Option Nibble
  /-- The MODEL's own: the configuration (R6), which nothing writes (R26). Log entry 1. -/
  cfg : Config
  /-- The MODEL's own: how many bytes RND has drawn; it only selects the next free byte. Log entry 3. -/
  draws : Nat
  /-- The MODEL's own: what the most recent STEP reported (R82). Log entry 4. -/
  effects : StepEffects
  deriving DecidableEq, Repr

/-- Reasons for the machine to stop with a fault. There are none: the spec gives every error an effect on the state
(R165: a fatal error ENTERS the run state Error, a next state), and every step of this core is defined. The type is
empty, so that no step can fault. Safe: nothing is hidden behind a fault. -/
inductive Fault where
  deriving DecidableEq, Repr

/-- Reasons for the model to give no meaning. -/
inductive Refusal where
  /-- Raised by an arm of exec whose instruction has no meaning in the model yet. Safe: nothing is claimed of it. -/
  | notModelled (mnemonic : String)
  /-- Raised by `systemEvent` for an event other than a successful LOAD before the first LOAD, of which the spec defines
  nothing (R192, D24: refuse). Never raised by `step` or `exec`. Safe: nothing is claimed of it. -/
  | beforeLoad
  deriving DecidableEq, Repr

/-- The core right after reset, which is LOAD (R190, R28), here of the empty ROM (L = 0, R191): every field at the value
of R28's table; the configuration is the recommended one (R6, log entry 1). -/
def State.reset : State where
  v := Vector.replicate 16 0x00#8
  i := 0x0000#16
  pc := 0x0200#16
  stack := Vector.replicate 16 0x0000#16
  sp := 0
  dt := 0x00#8
  st := 0x00#8
  disp := 0#2048
  mem := []
  keys := Vector.replicate 16 false
  runState := .running
  errKind := none
  errInfo := 0#17
  waitReg := 0#4
  keyEvent := none
  cfg := defaultConfig
  draws := 0
  effects := noEffects

end Sys2Proof.Machine
end

