-- ==== Sys2Proof/Machine/Ops.lean ====
section
/-!
DEFINITION. The named operations over the state: registers, program counter, main memory and its effective addresses,
the return stack, the display, the step effects, and entering the run state Error, which is this core's only exception
entry (60_exceptions.md R165). There is no return from it (R168).
-/

namespace Sys2Proof.Machine

/-! ## Registers -/

/-- Read of V[x] (R8, R10). -/
def State.getV (s : State) (x : Nibble) : Byte := s.v[x.toNat]'x.isLt

/-- Write of V[x] (R8, R10). -/
def State.setV (s : State) (x : Nibble) (b : Byte) : State := { s with v := s.v.set x.toNat b x.isLt }

/-- Write of VF = V[15] as a flag: 0x01 or 0x00 (R11). -/
def State.setFlag (s : State) (flag : Bool) : State := s.setV 0xF#4 (if flag then 0x01#8 else 0x00#8)

/-- Write of I (R13). -/
def State.setI (s : State) (w : Word) : State := { s with i := w }

/-- Write of pc (R12). -/
def State.setPc (s : State) (w : Word) : State := { s with pc := w }

/-- pc advances by 2 modulo 2^16: at every fetch (R83) and once more for a taken skip (R108, D7). -/
def State.advance (s : State) : State := s.setPc (s.pc + 2#16)

/-- A skip, taken when `c` holds (R108). -/
def State.skipIf (s : State) (c : Bool) : State := if c then s.advance else s

/-- Write of DT (R15). -/
def State.setDt (s : State) (b : Byte) : State := { s with dt := b }

/-- Write of ST (R16). -/
def State.setSt (s : State) (b : Byte) : State := { s with st := b }

/-! ## Step effects (R82) -/

/-- A STEP begins with no effects: they are valid for one STEP only. -/
def State.clearEffects (s : State) : State := { s with effects := noEffects }

/-- The effect `display_dirty <- true` (R140, R141). -/
def State.markDirty (s : State) : State := { s with effects := { s.effects with displayDirty := true } }

/-- The effect `sound_changed` (R155). -/
def State.reportSound (s : State) (c : Option Bool) : State := { s with effects := { s.effects with soundChanged := c } }

/-- The effect `invalid_opcode <- some(word)` (R164). -/
def State.reportInvalid (s : State) (w : Word) : State := { s with effects := { s.effects with invalidOpcode := some w } }

/-- The effect `error` (R165, R86). -/
def State.reportError (s : State) (e : Option (FatalError × ErrInfo)) : State :=
  { s with effects := { s.effects with error := e } }

/-! ## Entering Error: the core's only exception (R165) -/

/-- `raise K(info)`: run_state, err_kind, err_info and the error effect are written, and nothing else (R165). -/
def State.raise (s : State) (k : FatalError) (info : Nat) : State :=
  { s with
    runState := .error
    errKind := some k
    errInfo := BitVec.ofNat 17 info
    effects := { s.effects with error := some (k, BitVec.ofNat 17 info) } }

/-! ## Main memory (R19, R41, R42, R46) -/

/-- Byte j of the font table, 0x00 past its end: glyph j / 5, row j mod 5 (R24). -/
def fontByte (cfg : Config) (j : Nat) : Byte :=
  if h : j < 80 then (cfg.font[j / 5]'(by omega))[j % 5]'(by omega) else 0x00#8

/-- What an address reads as when nothing is listed for it: its reset contents without a ROM, the font at 0x000 to
0x04F and 0x00 elsewhere (R41, R190, D23). `FONT_BASE` is 0, so the address is the index into the font. -/
def Memory.initial (cfg : Config) (a : Nat) : Byte := fontByte cfg a

/-- Read of one byte: it changes nothing (R51). -/
def Memory.read (cfg : Config) : Memory → Nat → Byte
  | [], a => Memory.initial cfg a
  | (k, b) :: m, a => if a = k then b else Memory.read cfg m a

/-- Write of one byte: it changes that byte only (R51). The canonical form is kept: an entry equal to the reset contents
of its address is removed. -/
def Memory.write (cfg : Config) (a : Nat) (b : Byte) : Memory → Memory
  | [] => if b = Memory.initial cfg a then [] else [(a, b)]
  | (k, c) :: m =>
    if a < k then (if b = Memory.initial cfg a then (k, c) :: m else (a, b) :: (k, c) :: m)
    else if a = k then (if b = Memory.initial cfg a then m else (a, b) :: m)
    else (k, c) :: Memory.write cfg a b m

/-- The canonical form from address `lo` on: strictly rising addresses below 4096, no entry equal to what an unlisted
address reads as. -/
def Memory.wfFrom (cfg : Config) : Nat → Memory → Bool
  | _, [] => true
  | lo, (k, b) :: m => decide (lo ≤ k) && decide (k < memSize) && decide (b ≠ Memory.initial cfg k) && Memory.wfFrom cfg (k + 1) m

/-- The canonical form of memory. -/
def Memory.wf (cfg : Config) (m : Memory) : Bool := Memory.wfFrom cfg 0 m

/-- Consecutive bytes from `a` on, the first written last. -/
def Memory.writeRun (cfg : Config) : Nat → List Byte → Memory → Memory
  | _, [], m => m
  | a, b :: bs, m => Memory.write cfg a b (Memory.writeRun cfg (a + 1) bs m)

/-- Read of the byte at an effective address. -/
def State.read (s : State) (a : Nat) : Byte := Memory.read s.cfg s.mem a

/-- Write of the byte at an effective address. -/
def State.write (s : State) (a : Nat) (b : Byte) : State := { s with mem := Memory.write s.cfg a b s.mem }

/-- `EA(a)`: the effective address of a natural number, or the offending address of OutOfBoundsAddress (R42). -/
def ea (cfg : Config) (a : Nat) : Except Nat Nat :=
  if a ≤ 4095 then .ok a else if cfg.addressWrap then .ok (a % 4096) else .error a

/-- `EA(a), EA(a+1), ..., EA(a+n-1)`, or the first offending address in that order (R46). -/
def eaRange (cfg : Config) (a : Nat) : Nat → Except Nat (List Nat)
  | 0 => .ok []
  | n + 1 =>
    match ea cfg a with
    | .error bad => .error bad
    | .ok e =>
      match eaRange cfg (a + 1) n with
      | .error bad => .error bad
      | .ok es => .ok (e :: es)

/-- Writes byte k of `bs` at address k of `as`, in order (R133, R134). -/
def State.writeAll (s : State) : List Nat → List Byte → State
  | a :: as, b :: bs => (s.write a b).writeAll as bs
  | _, _ => s

/-- Loads `bs` into V[k], V[k+1], ... in order (R135). -/
def State.loadRegs (s : State) (k : Nat) : List Byte → State
  | [] => s
  | b :: bs => (s.setV (BitVec.ofNat 4 k) b).loadRegs (k + 1) bs

/-- A data access of `n` bytes from I on: all addresses are checked before any effect; if one is out of bounds the
first is raised and nothing else happens, else `act` gives the state after (R46, R54). -/
def accessFromI (s : State) (n : Nat) (act : List Nat → State) : State :=
  match eaRange s.cfg s.i.toNat n with
  | .error bad => s.raise .outOfBoundsAddress bad
  | .ok as => act as

/-! ## Return stack (R14) -/

/-- Push, or none when the stack holds 16 entries (R102, R161). -/
def State.push (s : State) (w : Word) : Option State :=
  if h : s.sp.val < 16 then
    some { s with stack := s.stack.set s.sp.val w h, sp := ⟨s.sp.val + 1, by omega⟩ }
  else none

/-- Pop, or none when the stack is empty (R100, R162); the slot keeps its bits (D25). -/
def State.pop (s : State) : Option (Word × State) :=
  match s.sp with
  | ⟨0, _⟩ => none
  | ⟨n + 1, h⟩ => some (s.stack[n]'(by omega), { s with sp := ⟨n, by omega⟩ })

/-! ## Display (R17) -/

/-- The flat index of a pixel (D30). -/
def pixelIndex (x y : Nat) : Nat := y * 64 + x

/-- Pixel (x, y) of a display. -/
def pixelOf (d : BitVec 2048) (x y : Nat) : Bool := d.getLsbD (pixelIndex x y)

/-- The display with pixel (x, y) inverted. -/
def flipPixel (d : BitVec 2048) (x y : Nat) : BitVec 2048 := d ^^^ BitVec.twoPow 2048 (pixelIndex x y)

/-- `disp[x, y]` (R8). -/
def State.pixel (s : State) (x y : Nat) : Bool := pixelOf s.disp x y

/-- Write of the whole display. -/
def State.setDisp (s : State) (d : BitVec 2048) : State := { s with disp := d }

/-- One sprite bit at pixel (x, y): a 1 bit tests the pixel and inverts it, a 0 bit does neither (R141). The pair is the
display and whether any pixel was on so far. -/
def drawBit (x y : Nat) (on : Bool) (acc : BitVec 2048 × Bool) : BitVec 2048 × Bool :=
  if on then (flipPixel acc.1 x y, acc.2 || pixelOf acc.1 x y) else acc

/-- One sprite row at row y: column c is bit 7 - c of the byte, at pixel column (x0 + c) mod 64 (R141, GK2). -/
def drawRow (x0 y : Nat) (b : Byte) (acc : BitVec 2048 × Bool) : BitVec 2048 × Bool :=
  (List.range 8).foldl (fun acc c => drawBit ((x0 + c) % 64) y (b.getLsbD (7 - c)) acc) acc

/-- The rows of a sprite from row r on: row r lands at pixel row (y0 + r) mod 32 (R141). -/
def drawRows (x0 y0 : Nat) : Nat → List Byte → BitVec 2048 × Bool → BitVec 2048 × Bool
  | _, [], acc => acc
  | r, b :: bs, acc => drawRows x0 y0 (r + 1) bs (drawRow x0 ((y0 + r) % 32) b acc)

/-! ## Keys and run state -/

/-- Level of key k (R18). -/
def State.key (s : State) (k : Nibble) : Bool := s.keys[k.toNat]'k.isLt

/-- Write of key k, by the host's SET_KEY only (R91). -/
def State.setKeyLevel (s : State) (k : Nibble) (d : Bool) : State := { s with keys := s.keys.set k.toNat d k.isLt }

/-- Write of run_state (R20). -/
def State.setRunState (s : State) (r : RunState) : State := { s with runState := r }

/-- Entering the key wait: wait_reg, key_event and run_state (R153). -/
def State.enterWait (s : State) (x : Nibble) : State := { s with waitReg := x, keyEvent := none, runState := .waitingForKey }

/-- Write of key_event (R23). -/
def State.setKeyEvent (s : State) (e : Option Nibble) : State := { s with keyEvent := e }

/-! ## The random draw (R122) -/

/-- `draw()`: a fresh free byte (R8, D5), and the state in which it is drawn. -/
def State.draw (s : State) : Byte × State := (Config.randomByte s.draws, { s with draws := s.draws + 1 })

/-! ## Sound -/

/-- `sound_active = (ST != 0)` (R29, R171, D19). -/
def State.soundActive (s : State) : Bool := decide (s.st ≠ 0#8)

end Sys2Proof.Machine
end

