-- ==== Sys2Proof/Machine/Operands.lean ====
section
/-!
DEFINITION. Operand forms: how an instruction's fields become the values it works on (30_encoding.md R63, 42_alu.md
R119, 45_keypad_timers.md R150, 43_index_memory.md R133 to R135).
-/

namespace Sys2Proof.Machine

/-- The address operand NNN, zero-extended to 16 bits (R63). -/
def addrOperand (nnn : Addr) : Word := nnn.zeroExtend 16

/-- A register value zero-extended to 16 bits (R8). -/
def byteToWord (b : Byte) : Word := b.zeroExtend 16

/-- The source of SHR and SHL: V[Y] under shift_uses_vy, else V[X] (R119, R121). -/
def shiftSource (s : State) (x y : Nibble) : Byte := if s.cfg.shiftUsesVy then s.getV y else s.getV x

/-- The key a register value names: its low 4 bits (R150, D12). -/
def keyOperand (b : Byte) : Nibble := b.extractLsb' 0 4

/-- The registers V[0] to V[x], in order: x + 1 of them (R134). -/
def regBlock (s : State) (x : Nibble) : List Byte := (List.range (x.toNat + 1)).map (fun k => s.getV (BitVec.ofNat 4 k))

/-- The three decimal digits of a byte: hundreds, tens, ones (R133, GK3). -/
def bcdDigits (v : Byte) : List Byte :=
  [BitVec.ofNat 8 (v.toNat / 100), BitVec.ofNat 8 (v.toNat / 10 % 10), BitVec.ofNat 8 (v.toNat % 10)]

/-- I after a block of x + 1 bytes: moved past the block under load_store_increments_i, else unchanged (R134, R135, D14). -/
def bumpI (s : State) (x : Nibble) : State :=
  if s.cfg.loadStoreIncrementsI then s.setI (BitVec.ofNat 16 (s.i.toNat + x.toNat + 1)) else s

/-- The result, then the flag: the order of writes of every flag-writing instruction, so that VF holds the flag when it
is also the destination (R118, D6). Both are computed from the operands before either write. -/
def writeResultFlag (s : State) (x : Nibble) (result : Byte) (flag : Bool) : State := (s.setV x result).setFlag flag

end Sys2Proof.Machine
end

