-- ==== Sys2Proof/Machine/Flags.lean ====
section
/-!
DEFINITION. Every flag computation of the spec (10_state.md R11, 42_alu.md R116 to R121, 43_index_memory.md R131): exact
sums and comparisons on natural numbers. The collision flag of DRW is computed by the draw itself (Ops.lean `drawBit`).
-/

namespace Sys2Proof.Machine

/-- Carry of a + b: 1 iff the 9-bit sum exceeds 255 (R116, R123). -/
def carryFlag (a b : Byte) : Bool := decide (a.toNat + b.toNat > 255)

/-- NOT borrow of a - b: 1 iff a >= b (R117, R120, R123). -/
def noBorrowFlag (a b : Byte) : Bool := decide (a.toNat ≥ b.toNat)

/-- The bit SHR shifts out: bit 0 of the source (R119). -/
def shrFlag (src : Byte) : Bool := src.getLsbD 0

/-- The bit SHL shifts out: bit 7 of the source (R121). -/
def shlFlag (src : Byte) : Bool := src.getLsbD 7

/-- 12-bit overflow of I + v: 1 iff the sum exceeds 0x0FFF (R131, D8). -/
def indexOverflowFlag (i : Word) (v : Byte) : Bool := decide (i.toNat + v.toNat > 0x0FFF)

end Sys2Proof.Machine
end

