-- ==== Sys2Proof/Machine/Alu.lean ====
section
/-!
DEFINITION. Register loads, arithmetic, logic, shifts and the random byte (42_alu.md R110 to R123). None of them changes
anything but V registers, and none can raise an error.
-/

namespace Sys2Proof.Machine

/-- LD Vx,byte (R110). -/
def execLdVxByte (x : Nibble) (nn : Byte) (s : State) : Host.Outcome State Fault Refusal := .next (s.setV x nn)

/-- ADD Vx,byte (R111): no flag effect. -/
def execAddVxByte (x : Nibble) (nn : Byte) (s : State) : Host.Outcome State Fault Refusal :=
  .next (s.setV x (s.getV x + nn))

/-- LD Vx,Vy (R112). -/
def execLdVxVy (x y : Nibble) (s : State) : Host.Outcome State Fault Refusal := .next (s.setV x (s.getV y))

/-- OR Vx,Vy (R113): no flag effect. -/
def execOrVxVy (x y : Nibble) (s : State) : Host.Outcome State Fault Refusal := .next (s.setV x (s.getV x ||| s.getV y))

/-- AND Vx,Vy (R114): no flag effect. -/
def execAndVxVy (x y : Nibble) (s : State) : Host.Outcome State Fault Refusal := .next (s.setV x (s.getV x &&& s.getV y))

/-- XOR Vx,Vy (R115): no flag effect. -/
def execXorVxVy (x y : Nibble) (s : State) : Host.Outcome State Fault Refusal := .next (s.setV x (s.getV x ^^^ s.getV y))

/-- ADD Vx,Vy (R116, R118). -/
def execAddVxVy (x y : Nibble) (s : State) : Host.Outcome State Fault Refusal :=
  .next (writeResultFlag s x (BitVec.ofNat 8 ((s.getV x).toNat + (s.getV y).toNat)) (carryFlag (s.getV x) (s.getV y)))

/-- SUB Vx,Vy (R117, R118): subtraction modulo 256. -/
def execSubVxVy (x y : Nibble) (s : State) : Host.Outcome State Fault Refusal :=
  .next (writeResultFlag s x (s.getV x - s.getV y) (noBorrowFlag (s.getV x) (s.getV y)))

/-- SHR Vx,Vy (R119, R118). -/
def execShrVxVy (x y : Nibble) (s : State) : Host.Outcome State Fault Refusal :=
  .next (writeResultFlag s x (shiftSource s x y >>> 1) (shrFlag (shiftSource s x y)))

/-- SUBN Vx,Vy (R120, R118): V[Y] - V[X] modulo 256. -/
def execSubnVxVy (x y : Nibble) (s : State) : Host.Outcome State Fault Refusal :=
  .next (writeResultFlag s x (s.getV y - s.getV x) (noBorrowFlag (s.getV y) (s.getV x)))

/-- SHL Vx,Vy (R121, R118). -/
def execShlVxVy (x y : Nibble) (s : State) : Host.Outcome State Fault Refusal :=
  .next (writeResultFlag s x (shiftSource s x y <<< 1) (shlFlag (shiftSource s x y)))

/-- RND Vx,byte (R122): the byte drawn is free (D5). -/
def execRndVxByte (x : Nibble) (nn : Byte) (s : State) : Host.Outcome State Fault Refusal :=
  .next (s.draw.2.setV x (s.draw.1 &&& nn))

end Sys2Proof.Machine
end

