-- ==== Sys2Proof/Machine/Display.lean ====
section
/-!
DEFINITION. The display instructions (44_display.md R140, R141).
-/

namespace Sys2Proof.Machine

/-- CLS (R140): every pixel off, and the step reports display_dirty (D20). -/
def execCls (s : State) : Host.Outcome State Fault Refusal := .next ((s.setDisp 0#2048).markDirty)

/-- DRW Vx,Vy,N (R141): N rows from I XORed at (V[X], V[Y]), both read before VF is written; then VF is 1 iff a pixel
that was on went off; the step reports display_dirty. -/
def execDrwVxVyN (x y n : Nibble) (s : State) : Host.Outcome State Fault Refusal :=
  .next (accessFromI s n.toNat (fun as =>
    let drawn := drawRows (s.getV x).toNat (s.getV y).toNat 0 (as.map s.read) (s.disp, false)
    ((s.setDisp drawn.1).setFlag drawn.2).markDirty))

end Sys2Proof.Machine
end

