-- ==== Sys2Proof/Machine/Flow.lean ====
section
/-!
DEFINITION. Control transfer (41_flow.md R100 to R108): RET, JP, CALL, the four skips on registers, JP V0. `pc` already
holds the instruction's own address plus 2 (R84).
-/

namespace Sys2Proof.Machine

/-- RET (R100): StackUnderflow on an empty stack, else pop into pc. -/
def execRet (s : State) : Host.Outcome State Fault Refusal :=
  match s.pop with
  | none => .next (s.raise .stackUnderflow s.pc.toNat)
  | some (w, t) => .next (t.setPc w)

/-- JP addr (R101). -/
def execJpAddr (nnn : Addr) (s : State) : Host.Outcome State Fault Refusal := .next (s.setPc (addrOperand nnn))

/-- CALL addr (R102): StackOverflow on a full stack, else push the advanced pc and jump. -/
def execCallAddr (nnn : Addr) (s : State) : Host.Outcome State Fault Refusal :=
  match s.push s.pc with
  | none => .next (s.raise .stackOverflow s.pc.toNat)
  | some t => .next (t.setPc (addrOperand nnn))

/-- SE Vx,byte (R103). -/
def execSeVxByte (x : Nibble) (nn : Byte) (s : State) : Host.Outcome State Fault Refusal :=
  .next (s.skipIf (decide (s.getV x = nn)))

/-- SNE Vx,byte (R104). -/
def execSneVxByte (x : Nibble) (nn : Byte) (s : State) : Host.Outcome State Fault Refusal :=
  .next (s.skipIf (decide (s.getV x ≠ nn)))

/-- SE Vx,Vy (R105). -/
def execSeVxVy (x y : Nibble) (s : State) : Host.Outcome State Fault Refusal :=
  .next (s.skipIf (decide (s.getV x = s.getV y)))

/-- SNE Vx,Vy (R106). -/
def execSneVxVy (x y : Nibble) (s : State) : Host.Outcome State Fault Refusal :=
  .next (s.skipIf (decide (s.getV x ≠ s.getV y)))

/-- JP V0,addr (R107): the sum is not reduced to 12 bits. -/
def execJpV0Addr (nnn : Addr) (s : State) : Host.Outcome State Fault Refusal :=
  .next (s.setPc (addrOperand nnn + byteToWord (s.getV 0x0#4)))

end Sys2Proof.Machine
end

