-- ==== Sys2Proof/Machine/IndexMemory.lean ====
section
/-!
DEFINITION. Index register, font lookup, BCD, register block store and load (43_index_memory.md R130 to R135). Those that
access memory check every address before any effect (20_memory.md R46).
-/

namespace Sys2Proof.Machine

/-- LD I,addr (R130). -/
def execLdIAddr (nnn : Addr) (s : State) : Host.Outcome State Fault Refusal := .next (s.setI (addrOperand nnn))

/-- ADD I,Vx (R131): I modulo 2^16; under add_i_sets_vf, VF is written last with the 12-bit overflow, 1 or 0. -/
def execAddIVx (x : Nibble) (s : State) : Host.Outcome State Fault Refusal :=
  let t := s.setI (BitVec.ofNat 16 (s.i.toNat + (s.getV x).toNat))
  .next (if s.cfg.addISetsVf then t.setFlag (indexOverflowFlag s.i (s.getV x)) else t)

/-- LD F,Vx (R132): all 8 bits of V[X], no memory access (D13). -/
def execLdFVx (x : Nibble) (s : State) : Host.Outcome State Fault Refusal :=
  .next (s.setI (BitVec.ofNat 16 (fontBase + 5 * (s.getV x).toNat)))

/-- LD B,Vx (R133): three digits at I, I+1, I+2. -/
def execLdBVx (x : Nibble) (s : State) : Host.Outcome State Fault Refusal :=
  .next (accessFromI s 3 (fun as => s.writeAll as (bcdDigits (s.getV x))))

/-- LD [I],Vx (R134): V[0] to V[X] at I to I+X, then I under load_store_increments_i. -/
def execLdMemVx (x : Nibble) (s : State) : Host.Outcome State Fault Refusal :=
  .next (accessFromI s (x.toNat + 1) (fun as => bumpI (s.writeAll as (regBlock s x)) x))

/-- LD Vx,[I] (R135): the bytes at I to I+X into V[0] to V[X], then I under load_store_increments_i. -/
def execLdVxMem (x : Nibble) (s : State) : Host.Outcome State Fault Refusal :=
  .next (accessFromI s (x.toNat + 1) (fun as => bumpI (s.loadRegs 0 (as.map s.read)) x))

end Sys2Proof.Machine
end

