-- ==== Sys2Proof/Machine/KeypadTimers.lean ====
section
/-!
DEFINITION. Keypad and timer instructions (45_keypad_timers.md R150 to R155). None writes VF as a side effect and none
can raise an error.
-/

namespace Sys2Proof.Machine

/-- SKP Vx (R150). -/
def execSkpVx (x : Nibble) (s : State) : Host.Outcome State Fault Refusal :=
  .next (s.skipIf (s.key (keyOperand (s.getV x))))

/-- SKNP Vx (R151). -/
def execSknpVx (x : Nibble) (s : State) : Host.Outcome State Fault Refusal :=
  .next (s.skipIf (!s.key (keyOperand (s.getV x))))

/-- LD Vx,DT (R152). -/
def execLdVxDt (x : Nibble) (s : State) : Host.Outcome State Fault Refusal := .next (s.setV x s.dt)

/-- LD Vx,K (R153): it only enters the wait; SET_KEY and a later STEP do the rest (R91, R85). -/
def execLdVxK (x : Nibble) (s : State) : Host.Outcome State Fault Refusal := .next (s.enterWait x)

/-- LD DT,Vx (R154). -/
def execLdDtVx (x : Nibble) (s : State) : Host.Outcome State Fault Refusal := .next (s.setDt (s.getV x))

/-- LD ST,Vx (R155): sound_changed reports the new level iff it differs from the old one. -/
def execLdStVx (x : Nibble) (s : State) : Host.Outcome State Fault Refusal :=
  let t := s.setSt (s.getV x)
  .next (t.reportSound (if t.soundActive ≠ s.soundActive then some t.soundActive else none))

end Sys2Proof.Machine
end

