-- ==== Sys2Proof/Machine/Fetch.lean ====
section
/-!
DEFINITION. What a STEP does around an instruction (40_step_cycle.md R83 to R86): the fetch, the invalid opcode, the
wait-state check, and the run states that execute nothing. Step.lean only chooses among them.
-/

namespace Sys2Proof.Machine

/-- The two fetch addresses EA(pc) and EA(pc + 1), or the first offending address (R83, R43). -/
def fetchAddrs (s : State) : Except Nat (Nat × Nat) :=
  match ea s.cfg s.pc.toNat with
  | .error bad => .error bad
  | .ok a0 =>
    match ea s.cfg (s.pc.toNat + 1) with
    | .error bad => .error bad
    | .ok a1 => .ok (a0, a1)

/-- The instruction word at pc, big-endian, or the offending address (R83). -/
def fetchWord (s : State) : Except Nat Word :=
  match fetchAddrs s with
  | .error bad => .error bad
  | .ok (a0, a1) => .ok (joinBytes (s.read a0) (s.read a1))

/-- The state an instruction acts on: a new STEP with no effects yet, pc advanced by 2 (R83, R84). -/
def afterFetch (s : State) : State := s.clearEffects.advance

/-- A fetch out of bounds: pc is not advanced (R83, R163, R166). -/
def fetchError (bad : Nat) (s : State) : State := s.clearEffects.raise .outOfBoundsAddress bad

/-- An invalid opcode: a no-op with a report; pc has been advanced by the fetch (R164, R70). -/
def invalidStep (w : Word) (s : State) : State := (afterFetch s).reportInvalid w

/-- STEP in WaitingForKey: one wait-state check; nothing is fetched (R85). -/
def waitCheck (s : State) : State :=
  match s.keyEvent with
  | some k => ((s.clearEffects.setV s.waitReg (k.zeroExtend 8)).setKeyEvent none).setRunState .running
  | none => s.clearEffects

/-- STEP in Paused or Quit: nothing changes and the effects are empty (R86). -/
def idleStep (s : State) : State := s.clearEffects

/-- STEP in Error: nothing changes; the latched error is reported again (R86, D29). -/
def errorStep (s : State) : State := s.clearEffects.reportError (s.errKind.map (fun k => (k, s.errInfo)))

/-- The state with a word stored at the two fetch addresses, first byte first, and the core Running, so that the next
STEP fetches and runs it; unchanged where pc cannot be fetched from. -/
def placeWord (s : State) (w : Word) : State :=
  match fetchAddrs s with
  | .error _ => s
  | .ok (a0, a1) => ((s.write a0 (hiByte w)).write a1 (loByte w)).setRunState .running

end Sys2Proof.Machine
end

