-- ==== Sys2Proof/Machine/Step.lean ====
section
/-!
DEFINITION. The STEP event in every run state (40_step_cycle.md R83 to R86), and the placing of one instruction where
STEP fetches next.
-/

namespace Sys2Proof.Machine

/-- STEP: one instruction, or one wait-state check, or nothing (R83 to R86). Host.Core's step is this event alone; the
host's other events are in Events.lean (log entry 5). -/
def step (s : State) : Host.Outcome State Fault Refusal :=
  match s.runState with
  | .running =>
    match fetchWord s with
    | .error bad => .next (fetchError bad s)
    | .ok w =>
      match decodeWord w with
      | .ok i => exec i (afterFetch s)
      | .error _ => .next (invalidStep w s)
  | .waitingForKey => .next (waitCheck s)
  | .paused => .next (idleStep s)
  | .quit => .next (idleStep s)
  | .error => .next (errorStep s)

/-- `s` with the instruction whose bits are `w` (bits above `nbits` zero) stored where `step` fetches next; it stands for
the LOAD of a program that begins with it (R190, log entry 6). -/
def State.withFetchWord (s : State) (nbits w : Nat) : State := placeWord s (BitVec.ofNat 16 (w % 2 ^ nbits))

end Sys2Proof.Machine
end

