-- ==== Sys2Proof/Machine/Load.lean ====
section
/-!
DEFINITION. The LOAD event: reset, with a program (70_reset_and_hazards.md R190 to R193).
-/

namespace Sys2Proof.Machine

/-- Memory after LOAD: the font and zeros, with ROM byte j at 0x200 + j (R190, R41). -/
def Memory.ofRom (cfg : Config) (rom : List Byte) : Memory := Memory.writeRun cfg progBase rom []

/-- The state a successful LOAD leaves: R28's table, the configuration as it was (R190, R26). `draws` only selects the
next free byte, so it is kept: a reload does not repeat the bytes drawn before it (log entry 3). -/
def loadedState (cfg : Config) (draws : Nat) (rom : List Byte) : State where
  v := Vector.replicate 16 0x00#8
  i := 0x0000#16
  pc := 0x0200#16
  stack := Vector.replicate 16 0x0000#16
  sp := 0
  dt := 0x00#8
  st := 0x00#8
  disp := 0#2048
  mem := Memory.ofRom cfg rom
  keys := Vector.replicate 16 false
  runState := .running
  errKind := none
  errInfo := 0#17
  waitReg := 0#4
  keyEvent := none
  cfg := cfg
  draws := draws
  effects := noEffects

/-- What LOAD answers (R190, R191). -/
inductive LoadResult where
  | success
  /-- The ROM is longer than 3584 bytes; its length (R160 code 5). -/
  | romTooLarge (len : Nat)
  deriving DecidableEq, Repr

/-- The answer of LOAD(rom) (R191). -/
def loadResult (rom : List Byte) : LoadResult := if romFits rom then .success else .romTooLarge rom.length

/-- LOAD on a core that has been loaded before, in any run state: a ROM that fits resets everything, one that does not
changes nothing (R190, R191, D24). -/
def loadRom (rom : List Byte) (s : State) : State := if romFits rom then loadedState s.cfg s.draws rom else s

/-- LOAD on a core that has never been loaded: a ROM that does not fit leaves it so (R191, R192). -/
def firstLoad (cfg : Config) (rom : List Byte) : Option State := if romFits rom then some (loadedState cfg 0 rom) else none

end Sys2Proof.Machine
end

