-- ==== Sys2Proof/Machine/Events.lean ====
section
/-!
DEFINITION. The host's seven events (40_step_cycle.md R80, R87 to R91, 60_exceptions.md R170), runs of them, and the core
before its first LOAD (70_reset_and_hazards.md R192).
-/

namespace Sys2Proof.Machine

/-- TICK: each timer is lowered by one if it is not zero, in every run state (R170, D17). -/
def tick (s : State) : State :=
  { s with dt := if s.dt = 0#8 then 0#8 else s.dt - 1#8, st := if s.st = 0#8 then 0#8 else s.st - 1#8 }

/-- SET_KEY(k, d): the latch follows the host in every run state; a key-down transition during the wait is captured if
none is pending (R91, D15, D18). -/
def setKey (k : Nibble) (d : Bool) (s : State) : State :=
  (if d = true ∧ s.key k = false ∧ s.runState = .waitingForKey ∧ s.keyEvent = none then s.setKeyEvent (some k)
   else s).setKeyLevel k d

/-- PAUSE: Running to Paused, else ignored (R88, D16). -/
def pause (s : State) : State := if s.runState = .running then s.setRunState .paused else s

/-- RESUME: Paused to Running, else ignored (R89, D16). -/
def resume (s : State) : State := if s.runState = .paused then s.setRunState .running else s

/-- QUIT: Running, Paused or WaitingForKey to Quit, else ignored (R90, D16). -/
def quit (s : State) : State :=
  match s.runState with
  | .running | .paused | .waitingForKey => s.setRunState .quit
  | .quit | .error => s

/-- One atomic event (R80). -/
inductive Event where
  | load (rom : List Byte)
  | step
  | tick
  | setKey (k : Nibble) (down : Bool)
  | pause
  | resume
  | quit
  deriving DecidableEq, Repr

/-- The state after an event, on a core that has been loaded (R80). -/
def event (e : Event) (s : State) : Host.Outcome State Fault Refusal :=
  match e with
  | .load rom => .next (loadRom rom s)
  | .step => step s
  | .tick => .next (tick s)
  | .setKey k d => .next (setKey k d s)
  | .pause => .next (pause s)
  | .resume => .next (resume s)
  | .quit => .next (quit s)

/-- A run: the events one after the other, in the host's order (R81, R94). -/
def runEvents : List Event → State → Host.Outcome State Fault Refusal
  | [], s => .next s
  | e :: es, s =>
    match event e s with
    | .next t => runEvents es t
    | .fault r => .fault r
    | .refused r => .refused r

/-- An event on a core that may not have been loaded yet (none): before the first successful LOAD only LOAD has a meaning,
every other event is refused (R192, D24). `cfg` is the configuration the core is built with (R6). -/
def systemEvent (cfg : Config) (e : Event) : Option State → Host.Outcome (Option State) Fault Refusal
  | some s =>
    match event e s with
    | .next t => .next (some t)
    | .fault r => .fault r
    | .refused r => .refused r
  | none =>
    match e with
    | .load rom => .next (firstLoad cfg rom)
    | .step | .tick | .setKey _ _ | .pause | .resume | .quit => .refused .beforeLoad

end Sys2Proof.Machine
end

