-- ==== Sys2Proof/Machine/Outputs.lean ====
section
/-!
DEFINITION. The level outputs (10_state.md R29), each a pure function of the state, and the error taxonomy with its codes
(60_exceptions.md R160).
-/

namespace Sys2Proof.Machine

/-- The error kinds of R160. `RomUnreadable` is the host's and never arises in the core (R179). -/
inductive ErrorKind where
  | noError
  | stackOverflow
  | stackUnderflow
  | outOfBoundsAddress
  | invalidOpcode
  | romTooLarge
  | romUnreadable
  deriving DecidableEq, Repr

/-- The numeric code (R160, D22). -/
def errorCode : ErrorKind → Nat
  | .noError => 0
  | .stackOverflow => 1
  | .stackUnderflow => 2
  | .outOfBoundsAddress => 3
  | .invalidOpcode => 4
  | .romTooLarge => 5
  | .romUnreadable => 6

/-- The kind the error latch holds (R21). -/
def latchedKind : Option FatalError → ErrorKind
  | none => .noError
  | some .stackOverflow => .stackOverflow
  | some .stackUnderflow => .stackUnderflow
  | some .outOfBoundsAddress => .outOfBoundsAddress

/-- What the core presents to the host between events (R29). -/
structure Outputs where
  /-- Pixel (x, y) at bit y * 64 + x. -/
  display : BitVec 2048
  soundActive : Bool
  isQuit : Bool
  runState : RunState
  /-- Kind and info, none unless the run state is Error. -/
  error : Option (FatalError × ErrInfo)
  deriving DecidableEq, Repr

/-- The level outputs of a state (R29). -/
def outputs (s : State) : Outputs where
  display := s.disp
  soundActive := s.soundActive
  isQuit := decide (s.runState = .quit)
  runState := s.runState
  error := if s.runState = .error then s.errKind.map (fun k => (k, s.errInfo)) else none

end Sys2Proof.Machine
end

