-- ==== Sys2Proof/Safety.lean ====
section
/-!
DEFINITION. The terms claims use: what a safe state is, the invariant every event keeps, the frames (what an instruction
leaves unchanged, 40_step_cycle.md R84), and which pixels a sprite covers (44_display.md R141).
-/

namespace Sys2Proof.Machine

/-- A run is safe while no fatal error has stopped it (R165). -/
def State.Safe (s : State) : Prop := s.runState ≠ .error

/-- What holds of every state that events reach from LOAD. -/
structure State.Inv (s : State) : Prop where
  /-- Memory is in canonical form. -/
  memCanonical : Memory.wf s.cfg s.mem = true
  /-- The error latch holds a kind exactly in Error (R21). -/
  errorLatched : s.errKind ≠ none ↔ s.runState = .error
  /-- With no error the info is 0 (R28, R160 code 0). -/
  infoClear : s.errKind = none → s.errInfo = 0#17
  /-- The last STEP reported the latched error, and none otherwise (R82, R86). -/
  errorReported : s.effects.error = s.errKind.map (fun k => (k, s.errInfo))
  /-- A captured key waits only in WaitingForKey, or is left behind by QUIT (R23, R90). -/
  eventOnlyWaiting : s.keyEvent ≠ none → s.runState = .waitingForKey ∨ s.runState = .quit
  /-- StackOverflow leaves the stack full and records pc (R102, R160, R161). -/
  overflowFull : s.errKind = some .stackOverflow → s.sp.val = 16 ∧ s.errInfo.toNat = s.pc.toNat
  /-- StackUnderflow leaves the stack empty and records pc (R100, R160, R162). -/
  underflowEmpty : s.errKind = some .stackUnderflow → s.sp.val = 0 ∧ s.errInfo.toNat = s.pc.toNat
  /-- OutOfBoundsAddress records an address above 4095 and never arises under address_wrap (R163). -/
  boundsAbove : s.errKind = some .outOfBoundsAddress → 4095 < s.errInfo.toNat ∧ s.cfg.addressWrap = false

/-! ## Frames -/

/-- Every V register but those in `dst` reads as before. -/
def KeepsRegs (dst : List Nibble) (s t : State) : Prop := ∀ r, r ∉ dst → t.getV r = s.getV r

/-- Every byte of memory but those at the addresses `stored` reads as before. -/
def KeepsMem (stored : List Nat) (s t : State) : Prop := ∀ a, a ∉ stored → t.read a = s.read a

/-- Only the registers `dst` may differ: every other register, every byte of memory and every other field is as before. -/
def OnlyRegs (dst : List Nibble) (s t : State) : Prop :=
  KeepsRegs dst s t ∧ KeepsMem [] s t ∧ t = { s with v := t.v }

/-- Only pc may differ. -/
def OnlyPc (s t : State) : Prop := KeepsRegs [] s t ∧ KeepsMem [] s t ∧ t = { s with pc := t.pc }

/-- Only I and the registers `dst` may differ. -/
def OnlyIndex (dst : List Nibble) (s t : State) : Prop :=
  KeepsRegs dst s t ∧ KeepsMem [] s t ∧ t = { s with v := t.v, i := t.i }

/-- Only the bytes at the addresses `stored` and I may differ. -/
def OnlyMem (stored : List Nat) (s t : State) : Prop :=
  KeepsRegs [] s t ∧ KeepsMem stored s t ∧ t = { s with mem := t.mem, i := t.i }

/-- Only what a fatal error writes differs (R165): run_state, err_kind, err_info and the error effect. -/
def OnlyRaise (k : FatalError) (info : Nat) (s t : State) : Prop :=
  KeepsRegs [] s t ∧ KeepsMem [] s t ∧ t.runState = .error ∧ t.errKind = some k ∧ t.errInfo.toNat = info ∧
    t.effects.error = some (k, t.errInfo) ∧
    t = { s with runState := t.runState, errKind := t.errKind, errInfo := t.errInfo,
                 effects := { s.effects with error := t.effects.error } }

/-! ## Sprites -/

/-- A data access of n bytes from I on has its effect: it is empty, ends inside memory, or addresses wrap (R42, R46). -/
def AccessOk (s : State) (n : Nat) : Prop := n = 0 ∨ s.i.toNat + n ≤ 4096 ∨ s.cfg.addressWrap = true

/-- Pixel (px, py) lies under a 1 bit of the sprite that DRW Vx,Vy,N draws: column c of row r, for some r below N and
c below 8, with wrap on both axes (R141). -/
def SpriteCovers (s : State) (x y n : Nibble) (px py : Nat) : Prop :=
  ∃ r c, r < n.toNat ∧ c < 8 ∧ px = ((s.getV x).toNat + c) % 64 ∧ py = ((s.getV y).toNat + r) % 32 ∧
    (s.read ((s.i.toNat + r) % 4096)).getLsbD (7 - c) = true

end Sys2Proof.Machine
end

