-- ==== Sys2Proof/Certificates/Slice0/Obligations.lean ====
section
/-!
DEFINITION. The statements for the provers, each from the rules of spec/ its docstring names. Where a clause rests on a
decision of the spec (D), on a general-knowledge passage (GK) or on a choice of the model (a log entry), the docstring says
so. In every per-instruction statement `s` is the state after the fetch, so `s.pc` is the instruction's address plus 2 (R84).
-/

open Sys2Proof Sys2Proof.Machine

/-! ## Encoding -/

/-- Ten words of 95_test_vectors.md E1 to E14 and S11 decode to the instructions named there, and four called invalid there
decode to none (30_encoding.md R65, R70; that 0x01E0 and 0x5AB1 are invalid, the full pattern deciding, is C2, D26, log
entry 21). -/
def Obligations.SpecWordsDecode : Prop :=
  decodeWord 0x00E0#16 = .ok .cls ∧ decodeWord 0x00EE#16 = .ok .ret ∧
  decodeWord 0x1234#16 = .ok (.jpAddr 0x234#12) ∧ decodeWord 0x3A42#16 = .ok (.seVxByte 0xA#4 0x42#8) ∧
  decodeWord 0x5AB0#16 = .ok (.seVxVy 0xA#4 0xB#4) ∧ decodeWord 0x8AB4#16 = .ok (.addVxVy 0xA#4 0xB#4) ∧
  decodeWord 0xBFFF#16 = .ok (.jpV0Addr 0xFFF#12) ∧ decodeWord 0xD12F#16 = .ok (.drwVxVyN 0x1#4 0x2#4 0xF#4) ∧
  decodeWord 0xE19E#16 = .ok (.skpVx 0x1#4) ∧ decodeWord 0xF265#16 = .ok (.ldVxMem 0x2#4) ∧
  decodeWord 0x01E0#16 = .error (.invalid .op0 0x01E0#16) ∧ decodeWord 0x5AB1#16 = .error (.invalid .op5 0x5AB1#16) ∧
  decodeWord 0x8AB8#16 = .error (.invalid .op8 0x8AB8#16) ∧ decodeWord 0xF175#16 = .error (.invalid .opF 0xF175#16)

/-- Decoding an encoded instruction gives it back, as a word and from its two bytes with anything after them, for every
instruction and every operand (30_encoding.md R61, R62, R65, R71). -/
def Obligations.DecodeInvertsEncode : Prop :=
  ∀ (i : Instr) (rest : List Byte),
    decodeWord (encode i) = .ok i ∧ decodeBytes (encodeBytes i ++ rest) = .ok (i, rest)

/-- Encoding a decoded word gives the word back: the decoder drops no bit of a legal word (30_encoding.md R61, R65). -/
def Obligations.EncodeInvertsDecode : Prop :=
  ∀ (w : Word) (i : Instr), decodeWord w = .ok i → encode i = w

/-- The decoder follows the opcode map: the row of the instruction it gives selects the word, a word some row selects is
decoded, a word no row selects is not, and the rows are pairwise disjoint (30_encoding.md R64, R65; that the full pattern
decides is C2, D26). -/
def Obligations.DecoderFollowsOpcodeMap : Prop :=
  ∀ w : Word,
    (∀ i, decodeWord w = .ok i → i.row ∈ opcodeMap ∧ i.row.selects w = true) ∧
    (legalWord w = true → ∃ i, decodeWord w = .ok i) ∧
    (legalWord w = false → ∃ e, decodeWord w = .error e) ∧
    (∀ r ∈ opcodeMap, ∀ r' ∈ opcodeMap, r.selects w = true → r'.selects w = true → r = r')

/-- The invalid words are those of the table of 30_encoding.md R70, group by group, and the decoder names the group and
the word (that 5XYN and 9XYN with N not 0 are invalid is C2, D26). -/
def Obligations.InvalidWordGroups : Prop :=
  ∀ w : Word,
    (decodeWord w = .error (.invalid .op0 w) ↔ w.toNat < 0x1000 ∧ w.toNat ≠ 0x00E0 ∧ w.toNat ≠ 0x00EE) ∧
    (decodeWord w = .error (.invalid .op5 w) ↔ w.toNat / 0x1000 = 0x5 ∧ w.toNat % 0x10 ≠ 0) ∧
    (decodeWord w = .error (.invalid .op8 w) ↔
      w.toNat / 0x1000 = 0x8 ∧ w.toNat % 0x10 ∈ [0x8, 0x9, 0xA, 0xB, 0xC, 0xD, 0xF]) ∧
    (decodeWord w = .error (.invalid .op9 w) ↔ w.toNat / 0x1000 = 0x9 ∧ w.toNat % 0x10 ≠ 0) ∧
    (decodeWord w = .error (.invalid .opE w) ↔ w.toNat / 0x1000 = 0xE ∧ w.toNat % 0x100 ∉ [0x9E, 0xA1]) ∧
    (decodeWord w = .error (.invalid .opF w) ↔
      w.toNat / 0x1000 = 0xF ∧ w.toNat % 0x100 ∉ [0x07, 0x0A, 0x15, 0x18, 0x1E, 0x29, 0x33, 0x55, 0x65]) ∧
    (∀ e, decodeWord w = .error e → ∃ g, e = .invalid g w)

/-! ## The step -/

/-- In Running, when the word at pc decodes to i, STEP is i's meaning on the state whose pc has advanced by 2 (modulo
2^16, D7) and whose step effects are empty, everything else as before (40_step_cycle.md R83, R84; the effects field is the
model's, log entry 4). -/
def Obligations.StepRunsDecodedInstruction : Prop :=
  ∀ (s : State) (w : Word) (i : Instr),
    s.runState = .running → fetchWord s = .ok w → decodeWord w = .ok i →
    step s = exec i (afterFetch s) ∧ (afterFetch s).pc.toNat = (s.pc.toNat + 2) % 65536 ∧
      afterFetch s = { s with pc := (afterFetch s).pc, effects := noEffects }

/-- The instruction word is the byte at EA(pc) and the byte at EA(pc + 1), big-endian; at pc = 0x0FFF the second is
address 0x000 under address_wrap, and without it the fetch raises OutOfBoundsAddress(0x1000) (20_memory.md R43). -/
def Obligations.FetchIsBigEndian : Prop :=
  ∀ s : State,
    (s.pc.toNat + 1 ≤ 4095 ∨ s.cfg.addressWrap = true →
      ∃ w, fetchWord s = .ok w ∧
        w.toNat = 256 * (s.read (s.pc.toNat % 4096)).toNat + (s.read ((s.pc.toNat + 1) % 4096)).toNat) ∧
    (s.pc.toNat = 0x0FFF → s.cfg.addressWrap = false → fetchWord s = .error 0x1000)

/-- A fetch beyond memory without address_wrap stops the core: pc is not advanced, nothing executes, and the first of pc
and pc + 1 that exceeds 4095 is recorded (40_step_cycle.md R83, 60_exceptions.md R163, R165, R166; that the error is precise
is D10). -/
def Obligations.FetchBeyondMemoryStops : Prop :=
  ∀ s : State, s.runState = .running → s.cfg.addressWrap = false → 4095 ≤ s.pc.toNat →
    ∃ t, step s = .next t ∧ t.pc = s.pc ∧ OnlyRaise .outOfBoundsAddress (max s.pc.toNat 4096) s.clearEffects t

/-- An invalid opcode is a no-op that is reported: pc advances by 2, the core stays Running, nothing else changes, and the
only effect is the word (60_exceptions.md R164, 30_encoding.md R70; that pc is modulo 2^16 is D7, log entry 11; the form of
the report is D21, log entry 20). -/
def Obligations.InvalidOpcodeIsReportedNoop : Prop :=
  ∀ (s : State) (w : Word) (e : DecodeError),
    s.runState = .running → fetchWord s = .ok w → decodeWord w = .error e →
    ∃ t, step s = .next t ∧ t.runState = .running ∧ t.pc.toNat = (s.pc.toNat + 2) % 65536 ∧
      t.effects.invalidOpcode = some w ∧ t.effects.displayDirty = false ∧ t.effects.soundChanged = none ∧
      t.effects.error = none ∧ t = { s with pc := t.pc, effects := t.effects }

/-- STEP in WaitingForKey fetches nothing: with a captured key it writes the key's index into the waiting register and
returns to Running; without one it changes nothing (40_step_cycle.md R85; the latches are D15). -/
def Obligations.WaitCheckWritesTheKey : Prop :=
  ∀ s : State, s.runState = .waitingForKey →
    (∀ k, s.keyEvent = some k → ∃ t, step s = .next t ∧ (t.getV s.waitReg).toNat = k.toNat ∧ t.keyEvent = none ∧
      t.runState = .running ∧ t.effects = noEffects ∧ KeepsRegs [s.waitReg] s t ∧ KeepsMem [] s t ∧
      t = { s with v := t.v, keyEvent := none, runState := .running, effects := noEffects }) ∧
    (s.keyEvent = none → step s = .next { s with effects := noEffects })

/-- STEP in Paused, Quit or Error changes nothing; its effects are empty, but that in Error the latched error is reported
again (40_step_cycle.md R86; the repeated report is D29). -/
def Obligations.StoppedStatesExecuteNothing : Prop :=
  ∀ s : State,
    (s.runState = .paused ∨ s.runState = .quit → step s = .next { s with effects := noEffects }) ∧
    (s.runState = .error →
      step s = .next { s with effects := { noEffects with error := s.errKind.map (fun k => (k, s.errInfo)) } })

/-- Every instruction and every STEP answers a next state, from every state: no fault, no refusal (40_step_cycle.md
section 2, 60_exceptions.md section 2: every error has an effect on the state). -/
def Obligations.EveryStepAnswers : Prop :=
  (∀ (i : Instr) (s : State), ∃ t, exec i s = .next t) ∧ (∀ s : State, ∃ t, step s = .next t)

/-- What a STEP reports: display_dirty exactly for CLS and DRW without a fatal error, sound_changed exactly for an LD ST,Vx
that changed the level, invalid_opcode exactly for an invalid word, an error exactly when the core is in Error afterwards
(40_step_cycle.md R82, R86; D19, D20, D21, log entry 20; that a STEP already in Error reports its error again is D29, log
entry 19; the effects field is the model's, log entry 4). -/
def Obligations.StepEffectsReported : Prop :=
  ∀ s : State, s.Inv → ∃ t, step s = .next t ∧
    (t.effects.displayDirty = true ↔ s.runState = .running ∧ t.runState ≠ .error ∧
      ∃ w i, fetchWord s = .ok w ∧ decodeWord w = .ok i ∧ (i = .cls ∨ ∃ x y n, i = .drwVxVyN x y n)) ∧
    (∀ b, t.effects.soundChanged = some b ↔ s.runState = .running ∧ t.soundActive = b ∧ s.soundActive ≠ b ∧
      ∃ w x, fetchWord s = .ok w ∧ decodeWord w = .ok (.ldStVx x)) ∧
    (∀ w, t.effects.invalidOpcode = some w ↔ s.runState = .running ∧ fetchWord s = .ok w ∧ ∃ e, decodeWord w = .error e) ∧
    (t.effects.error ≠ none ↔ t.runState = .error)

/-! ## Invariants and whole-machine rules -/

/-- A STEP keeps the invariant: canonical memory (R19; its form is the model's, log entry 8), an error latched exactly in Error
(10_state.md R21, 60_exceptions.md R165) and reported (40_step_cycle.md R82, R86; the field is the model's, log entry 4; the
repeated report is D29, log entry 19), a captured key only during a wait or after QUIT (R23, R90; D15, log entry 18), a full
stack after StackOverflow (R161), an empty one after StackUnderflow (R162), and an address above 4095 recorded by
OutOfBoundsAddress, which never arises under address_wrap (R163). The precise residue is D10 (log entry 13) and the recorded
info D22 (log entry 20). -/
def Obligations.StepKeepsInvariant : Prop :=
  ∀ s t : State, s.Inv → step s = .next t → t.Inv

/-- The state after reset, and after any successful LOAD under any configuration, meets the invariant (70_reset_and_hazards.md
R190, 10_state.md R28; that LOAD leaves the error latch and key_event none is D23, log entry 9; the form of memory and the
effects field are the model's, log entries 8 and 4; that the model starts from the empty ROM is log entry 6). -/
def Obligations.LoadedStateMeetsInvariant : Prop :=
  State.reset.Inv ∧ ∀ (cfg : Config) (n : Nat) (rom : List Byte), romFits rom = true → (loadedState cfg n rom).Inv

/-- From every state that meets the invariant (every loaded state does: LoadedStateMeetsInvariant), every sequence of the
host's events, in any order, answers a next state, and that state meets the invariant (40_step_cycle.md R94: any
interleaving is a possible run; D31, log entry 5). It rests on every choice that StepKeepsInvariant names, and on these: QUIT
is ignored in Error (D16), TICK and SET_KEY act in every run state (D17, D18; all three log entry 19), the press is latched
(D15, log entry 18), a LOAD resets the latches (D23, log entry 9) and a failed LOAD changes nothing (D24, log entry 7). -/
def Obligations.EveryRunKeepsInvariant : Prop :=
  ∀ (es : List Event) (s : State), s.Inv → ∃ t, runEvents es s = .next t ∧ t.Inv

/-- No sequence of events changes the configuration (10_state.md R26; that it is carried in the state is the model's choice,
log entry 1, and that it is a parameter is D2). -/
def Obligations.ConfigurationNeverChanges : Prop :=
  ∀ (es : List Event) (s : State), ∃ t, runEvents es s = .next t ∧ t.cfg = s.cfg

/-- Only a successful LOAD leaves Error, and it resets everything; every other event leaves the core in Error with the same
latched error and changes nothing but the timers, the key latch and the effects of the last STEP (60_exceptions.md R168;
that QUIT is ignored in Error is D16, that TICK and SET_KEY act there D17, D18, the effects D29, all log entry 19; that a
failed LOAD changes nothing is D24, log entry 7). -/
def Obligations.ErrorLeftOnlyByLoad : Prop :=
  ∀ (e : Event) (s : State), s.runState = .error → ∃ t, event e s = .next t ∧
    ((∃ rom, e = .load rom ∧ romFits rom = true ∧ t = loadedState s.cfg s.draws rom) ∨
     ((∀ rom, e = .load rom → romFits rom = false) ∧ t.runState = .error ∧
        t = { s with dt := t.dt, st := t.st, keys := t.keys, effects := t.effects }))

/-- The run state after every event, from every run state: the transition table of 40_step_cycle.md R87 and no other
transition (the ignored events are D16, log entry 19; the latched key is D15, log entry 18; a failed LOAD is D24, log entry
7). A STEP in Running goes to WaitingForKey exactly when it executes LD Vx,K, to Error
exactly when it reports an error, and else stays Running. -/
def Obligations.RunStateTransitionTable : Prop :=
  ∀ (e : Event) (s : State), ∃ t, event e s = .next t ∧
    match s.runState, e with
    | r, .load rom => t.runState = if romFits rom then .running else r
    | .running, .step =>
      (t.runState = .running ∨ t.runState = .waitingForKey ∨ t.runState = .error) ∧
      (t.runState = .waitingForKey ↔ ∃ w x, fetchWord s = .ok w ∧ decodeWord w = .ok (.ldVxK x)) ∧
      (t.runState = .error ↔ t.effects.error ≠ none)
    | .waitingForKey, .step => t.runState = if s.keyEvent = none then .waitingForKey else .running
    | .running, .pause => t.runState = .paused
    | .paused, .resume => t.runState = .running
    | .running, .quit => t.runState = .quit
    | .paused, .quit => t.runState = .quit
    | .waitingForKey, .quit => t.runState = .quit
    | r, _ => t.runState = r

/-- No instruction changes the delay timer but LD DT,Vx, the sound timer but LD ST,Vx, the display but CLS and DRW, the wait
latches but LD Vx,K; none changes the key latch (10_state.md R15 to R18, R22, R23, 60_exceptions.md R172, R175; the wait
latches are D15, log entry 18). -/
def Obligations.DevicesWrittenOnlyByTheirInstructions : Prop :=
  ∀ (i : Instr) (s : State), ∃ t, exec i s = .next t ∧
    (t.dt ≠ s.dt → ∃ x, i = .ldDtVx x) ∧ (t.st ≠ s.st → ∃ x, i = .ldStVx x) ∧
    (t.disp ≠ s.disp → i = .cls ∨ ∃ x y n, i = .drwVxVyN x y n) ∧
    (t.waitReg ≠ s.waitReg ∨ t.keyEvent ≠ s.keyEvent → ∃ x, i = .ldVxK x) ∧ t.keys = s.keys

/-- No instruction changes a byte of memory but LD B,Vx and LD [I],Vx (20_memory.md section 4, R54), and none changes the
return stack or its depth but CALL and RET (10_state.md R14). -/
def Obligations.MemoryAndStackWrittenOnlyByTheirInstructions : Prop :=
  ∀ (i : Instr) (s : State), ∃ t, exec i s = .next t ∧
    ((∃ a, t.read a ≠ s.read a) → (∃ x, i = .ldBVx x) ∨ ∃ x, i = .ldMemVx x) ∧
    (t.sp ≠ s.sp ∨ t.stack ≠ s.stack → i = .ret ∨ ∃ nnn, i = .callAddr nnn)

/-- An instruction that changes VF is one of those of 10_state.md R11's table (ADD I,Vx only under add_i_sets_vf), or names
VF as its destination, or is LD VF,[I]: every other instruction leaves VF as it was (OR, AND, XOR and ADD Vx,byte among
them). -/
def Obligations.FlagWrittenOnlyByFlagInstructions : Prop :=
  ∀ (i : Instr) (s : State), ∃ t, exec i s = .next t ∧
    (t.getV 0xF#4 ≠ s.getV 0xF#4 →
      (∃ x y, i = .addVxVy x y ∨ i = .subVxVy x y ∨ i = .shrVxVy x y ∨ i = .subnVxVy x y ∨ i = .shlVxVy x y) ∨
      (∃ x y n, i = .drwVxVyN x y n) ∨ (s.cfg.addISetsVf = true ∧ ∃ x, i = .addIVx x) ∨
      (∃ nn, i = .ldVxByte 0xF#4 nn ∨ i = .addVxByte 0xF#4 nn ∨ i = .rndVxByte 0xF#4 nn) ∨
      (∃ y, i = .ldVxVy 0xF#4 y ∨ i = .orVxVy 0xF#4 y ∨ i = .andVxVy 0xF#4 y ∨ i = .xorVxVy 0xF#4 y) ∨
      i = .ldVxDt 0xF#4 ∨ i = .ldVxMem 0xF#4)

/-- Every instruction leaves the advanced pc as it is but JP, CALL, RET, JP V0 and the six skips (10_state.md R12), and I as
it is but LD I,addr, ADD I,Vx, LD F,Vx and, under load_store_increments_i, the block store and load (10_state.md R13). -/
def Obligations.PcAndIndexWrittenOnlyByTheirInstructions : Prop :=
  ∀ (i : Instr) (s : State), ∃ t, exec i s = .next t ∧
    (t.pc ≠ s.pc →
      i = .ret ∨ (∃ nnn, i = .jpAddr nnn ∨ i = .callAddr nnn ∨ i = .jpV0Addr nnn) ∨
      (∃ x nn, i = .seVxByte x nn ∨ i = .sneVxByte x nn) ∨ (∃ x y, i = .seVxVy x y ∨ i = .sneVxVy x y) ∨
      (∃ x, i = .skpVx x ∨ i = .sknpVx x)) ∧
    (t.i ≠ s.i →
      (∃ nnn, i = .ldIAddr nnn) ∨ (∃ x, i = .addIVx x ∨ i = .ldFVx x) ∨
      (s.cfg.loadStoreIncrementsI = true ∧ ∃ x, i = .ldMemVx x ∨ i = .ldVxMem x))

/-- A STEP in Running that ends in Error has changed nothing but run_state, the error latch, the effects and pc, and pc is
advanced, modulo 2^16 (D7, log entry 11), exactly when an instruction was fetched (60_exceptions.md R166; the precision is
D10, log entry 13). -/
def Obligations.FatalErrorIsPrecise : Prop :=
  ∀ s t : State, s.runState = .running → step s = .next t → t.runState = .error →
    t = { s with pc := t.pc, runState := .error, errKind := t.errKind, errInfo := t.errInfo, effects := t.effects } ∧
    (((∃ bad, fetchWord s = .error bad) ∧ t.pc = s.pc) ∨
     ((∃ w i, fetchWord s = .ok w ∧ decodeWord w = .ok i) ∧ t.pc = s.pc + 2#16))

/-- Each fatal error of an instruction has its cause: an instruction executed outside Error leaves the core in Error only as
CALL on a full stack, as RET on an empty one, or as one of the four memory instructions whose access leaves memory without
address_wrap, and then it records that kind (60_exceptions.md R160, R161, R162, R163). -/
def Obligations.EachErrorHasItsCause : Prop :=
  ∀ (i : Instr) (s : State), s.runState ≠ .error → ∃ t, exec i s = .next t ∧
    (t.runState = .error ↔
      (t.errKind = some .stackOverflow ∧ s.sp.val = 16 ∧ ∃ nnn, i = .callAddr nnn) ∨
      (t.errKind = some .stackUnderflow ∧ s.sp.val = 0 ∧ i = .ret) ∨
      (t.errKind = some .outOfBoundsAddress ∧
        ((∃ x, i = .ldBVx x ∧ ¬ AccessOk s 3) ∨
         (∃ x, (i = .ldMemVx x ∨ i = .ldVxMem x) ∧ ¬ AccessOk s (x.toNat + 1)) ∨
         (∃ x y n, i = .drwVxVyN x y n ∧ ¬ AccessOk s n.toNat))))

/-! ## Control transfer (41_flow.md) -/

/-- JP addr: pc is NNN, zero-extended (R101). JP V0,addr: pc is NNN + V[0], not reduced to 12 bits (D7, log entry 11); when
the sum is 0x0FFF or more the next fetch raises OutOfBoundsAddress without address_wrap, and not with it (R107; the address
it carries is D10, log entry 13). Nothing else changes. Their words are 0x1NNN and 0xBNNN. -/
def Obligations.JumpsGoToTheirTargets : Prop :=
  ∀ (nnn : Addr) (s : State),
    (encode (.jpAddr nnn)).toNat = 0x1000 + nnn.toNat ∧ (encode (.jpV0Addr nnn)).toNat = 0xB000 + nnn.toNat ∧
    (∃ t, exec (.jpAddr nnn) s = .next t ∧ t.pc.toNat = nnn.toNat ∧ OnlyPc s t) ∧
    (∃ t, exec (.jpV0Addr nnn) s = .next t ∧ t.pc.toNat = nnn.toNat + (s.getV 0x0#4).toNat ∧ OnlyPc s t ∧
      (s.cfg.addressWrap = false → 0x0FFF ≤ nnn.toNat + (s.getV 0x0#4).toNat →
        fetchWord t = .error (max (nnn.toNat + (s.getV 0x0#4).toNat) 4096)) ∧
      (s.cfg.addressWrap = true → ∃ w, fetchWord t = .ok w))

/-- CALL addr: with fewer than 16 entries the advanced pc goes into slot sp, sp rises by one and pc is NNN; with 16 entries
StackOverflow is raised with pc, nothing is pushed and pc is not set (R102, 60_exceptions.md R161). Its word is 0x2NNN. -/
def Obligations.CallPushesReturnAddress : Prop :=
  ∀ (nnn : Addr) (s : State),
    (encode (.callAddr nnn)).toNat = 0x2000 + nnn.toNat ∧
    (s.sp.val < 16 → ∃ t, exec (.callAddr nnn) s = .next t ∧ t.pc.toNat = nnn.toNat ∧ t.sp.val = s.sp.val + 1 ∧
      t.stack[s.sp.val]? = some s.pc ∧ (∀ k, k ≠ s.sp.val → t.stack[k]? = s.stack[k]?) ∧
      KeepsRegs [] s t ∧ KeepsMem [] s t ∧ t = { s with pc := t.pc, sp := t.sp, stack := t.stack }) ∧
    (s.sp.val = 16 → ∃ t, exec (.callAddr nnn) s = .next t ∧ OnlyRaise .stackOverflow s.pc.toNat s t)

/-- RET: with an entry on the stack sp falls by one and pc is the slot, which keeps its bits (D25); on an empty stack
StackUnderflow is raised with pc (R100, 60_exceptions.md R162). -/
def Obligations.RetPopsIntoPc : Prop :=
  ∀ s : State,
    (0 < s.sp.val → ∃ t, exec .ret s = .next t ∧ t.sp.val = s.sp.val - 1 ∧ s.stack[s.sp.val - 1]? = some t.pc ∧
      KeepsRegs [] s t ∧ KeepsMem [] s t ∧ t = { s with pc := t.pc, sp := t.sp }) ∧
    (s.sp.val = 0 → ∃ t, exec .ret s = .next t ∧ OnlyRaise .stackUnderflow s.pc.toNat s t)

/-- CALL then RET: whatever runs between them and leaves the stack as CALL left it, pc after RET is the value immediately
following the CALL, and the depth is as before (R100, the property quoted there). -/
def Obligations.CallThenRetReturns : Prop :=
  ∀ (nnn : Addr) (s : State), s.sp.val < 16 → ∃ t, exec (.callAddr nnn) s = .next t ∧
    ∀ u : State, u.stack = t.stack → u.sp = t.sp → ∃ w, exec .ret u = .next w ∧ w.pc = s.pc ∧ w.sp = s.sp

/-- SE Vx,byte and SNE Vx,byte: pc rises by 2 more, modulo 2^16 (R108; D7, log entry 11), when V[X] is equal (SE) or not equal
(SNE) to NN; nothing else changes (R103, R104). Their words are 0x3XNN and 0x4XNN. -/
def Obligations.SkipsOnImmediate : Prop :=
  ∀ (x : Nibble) (nn : Byte) (s : State),
    (encode (.seVxByte x nn)).toNat = 0x3000 + 0x100 * x.toNat + nn.toNat ∧
    (encode (.sneVxByte x nn)).toNat = 0x4000 + 0x100 * x.toNat + nn.toNat ∧
    (∃ t, exec (.seVxByte x nn) s = .next t ∧
      t.pc.toNat = (s.pc.toNat + if (s.getV x).toNat = nn.toNat then 2 else 0) % 65536 ∧ OnlyPc s t) ∧
    (∃ t, exec (.sneVxByte x nn) s = .next t ∧
      t.pc.toNat = (s.pc.toNat + if (s.getV x).toNat = nn.toNat then 0 else 2) % 65536 ∧ OnlyPc s t)

/-- SE Vx,Vy and SNE Vx,Vy: pc rises by 2 more, modulo 2^16 (R108; D7, log entry 11), when V[X] is equal (SE) or not equal
(SNE) to V[Y]; nothing else changes (R105, R106). -/
def Obligations.SkipsOnRegisters : Prop :=
  ∀ (x y : Nibble) (s : State),
    (∃ t, exec (.seVxVy x y) s = .next t ∧
      t.pc.toNat = (s.pc.toNat + if (s.getV x).toNat = (s.getV y).toNat then 2 else 0) % 65536 ∧ OnlyPc s t) ∧
    (∃ t, exec (.sneVxVy x y) s = .next t ∧
      t.pc.toNat = (s.pc.toNat + if (s.getV x).toNat = (s.getV y).toNat then 0 else 2) % 65536 ∧ OnlyPc s t)

/-! ## Register loads, arithmetic, logic, shifts, random (42_alu.md) -/

/-- LD Vx,byte and LD Vx,Vy: V[X] is NN, or the old V[Y]; nothing else changes (R110, R112). Their words are 0x6XNN and
0x8XY0. -/
def Obligations.LoadRegister : Prop :=
  ∀ (x y : Nibble) (nn : Byte) (s : State),
    (encode (.ldVxByte x nn)).toNat = 0x6000 + 0x100 * x.toNat + nn.toNat ∧
    (encode (.ldVxVy x y)).toNat = 0x8000 + 0x100 * x.toNat + 0x10 * y.toNat ∧
    (∃ t, exec (.ldVxByte x nn) s = .next t ∧ t.getV x = nn ∧ OnlyRegs [x] s t) ∧
    (∃ t, exec (.ldVxVy x y) s = .next t ∧ t.getV x = s.getV y ∧ OnlyRegs [x] s t)

/-- ADD Vx,byte: V[X] is the sum modulo 256; no flag is written (VF only as the destination); nothing else changes (R111).
Its word is 0x7XNN. -/
def Obligations.AddImmediateNoFlag : Prop :=
  ∀ (x : Nibble) (nn : Byte) (s : State),
    (encode (.addVxByte x nn)).toNat = 0x7000 + 0x100 * x.toNat + nn.toNat ∧
    ∃ t, exec (.addVxByte x nn) s = .next t ∧
      (t.getV x).toNat = ((s.getV x).toNat + nn.toNat) % 256 ∧ OnlyRegs [x] s t

/-- OR, AND and XOR work bit by bit on the old V[X] and V[Y]; no flag is written; nothing else changes (R113, R114, R115).
Their words are 0x8XY1, 0x8XY2 and 0x8XY3. -/
def Obligations.LogicIsBitwise : Prop :=
  ∀ (x y : Nibble) (s : State),
    (encode (.orVxVy x y)).toNat = 0x8001 + 0x100 * x.toNat + 0x10 * y.toNat ∧
    (encode (.andVxVy x y)).toNat = 0x8002 + 0x100 * x.toNat + 0x10 * y.toNat ∧
    (encode (.xorVxVy x y)).toNat = 0x8003 + 0x100 * x.toNat + 0x10 * y.toNat ∧
    (∃ t, exec (.orVxVy x y) s = .next t ∧ OnlyRegs [x] s t ∧
      ∀ k, (t.getV x).getLsbD k = ((s.getV x).getLsbD k || (s.getV y).getLsbD k)) ∧
    (∃ t, exec (.andVxVy x y) s = .next t ∧ OnlyRegs [x] s t ∧
      ∀ k, (t.getV x).getLsbD k = ((s.getV x).getLsbD k && (s.getV y).getLsbD k)) ∧
    (∃ t, exec (.xorVxVy x y) s = .next t ∧ OnlyRegs [x] s t ∧
      ∀ k, (t.getV x).getLsbD k = ((s.getV x).getLsbD k ^^ (s.getV y).getLsbD k))

/-- ADD Vx,Vy: VF is 1 when the sum exceeds 255, else 0, also when X is 0xF (the flag is written last: R118, D6, C3, C8); for
every other X, V[X] is the sum modulo 256; nothing else changes (R116). -/
def Obligations.AddSetsCarry : Prop :=
  ∀ (x y : Nibble) (s : State), ∃ t, exec (.addVxVy x y) s = .next t ∧ OnlyRegs [x, 0xF#4] s t ∧
    (t.getV 0xF#4).toNat = (if (s.getV x).toNat + (s.getV y).toNat > 255 then 1 else 0) ∧
    (x ≠ 0xF#4 → (t.getV x).toNat = ((s.getV x).toNat + (s.getV y).toNat) % 256)

/-- SUB and SUBN: VF is 1 when no borrow occurs (V[X] >= V[Y], for SUBN V[Y] >= V[X]), else 0, also when X is 0xF (R118, D6);
for every other X, V[X] is the difference modulo 256; nothing else changes (R117, R120; SUBN's else 0 is the spec's derived
completion). -/
def Obligations.SubtractSetsNotBorrow : Prop :=
  ∀ (x y : Nibble) (s : State),
    (∃ t, exec (.subVxVy x y) s = .next t ∧ OnlyRegs [x, 0xF#4] s t ∧
      (t.getV 0xF#4).toNat = (if (s.getV x).toNat ≥ (s.getV y).toNat then 1 else 0) ∧
      (x ≠ 0xF#4 → (t.getV x).toNat = ((s.getV x).toNat + 256 - (s.getV y).toNat) % 256)) ∧
    (∃ t, exec (.subnVxVy x y) s = .next t ∧ OnlyRegs [x, 0xF#4] s t ∧
      (t.getV 0xF#4).toNat = (if (s.getV y).toNat ≥ (s.getV x).toNat then 1 else 0) ∧
      (x ≠ 0xF#4 → (t.getV x).toNat = ((s.getV y).toNat + 256 - (s.getV x).toNat) % 256))

/-- SHR and SHL move their source by one place: VF is the bit shifted out, also when X is 0xF (R118, D6); for every other X,
V[X] is the source halved (SHR) or doubled modulo 256 (SHL); the source is V[Y] under shift_uses_vy, else V[X]; nothing else
changes (R119, R121). -/
def Obligations.ShiftsMoveByOne : Prop :=
  ∀ (x y : Nibble) (s : State) (src : Nat),
    src = (if s.cfg.shiftUsesVy = true then s.getV y else s.getV x).toNat →
    (∃ t, exec (.shrVxVy x y) s = .next t ∧ OnlyRegs [x, 0xF#4] s t ∧ (t.getV 0xF#4).toNat = src % 2 ∧
      (x ≠ 0xF#4 → (t.getV x).toNat = src / 2)) ∧
    (∃ t, exec (.shlVxVy x y) s = .next t ∧ OnlyRegs [x, 0xF#4] s t ∧ (t.getV 0xF#4).toNat = src / 128 ∧
      (x ≠ 0xF#4 → (t.getV x).toNat = (2 * src) % 256))

/-- RND Vx,byte: V[X] is the free byte masked with NN, so no bit is set that NN has clear; nothing else changes but the
model's own count of draws (R122; the free byte is D5, log entry 3, and the statement holds for every value of it). -/
def Obligations.RandomByteIsMasked : Prop :=
  ∀ (x : Nibble) (nn : Byte) (s : State), ∃ t, exec (.rndVxByte x nn) s = .next t ∧
    t.getV x = Config.randomByte s.draws &&& nn ∧ (∀ k, (t.getV x).getLsbD k = true → nn.getLsbD k = true) ∧
    KeepsRegs [x] s t ∧ KeepsMem [] s t ∧ t = { s with v := t.v, draws := s.draws + 1 }

/-! ## Index register and memory (43_index_memory.md) -/

/-- LD I,addr: I is NNN, zero-extended; nothing else changes (R130). Its word is 0xANNN. -/
def Obligations.LoadIndexAddress : Prop :=
  ∀ (nnn : Addr) (s : State), (encode (.ldIAddr nnn)).toNat = 0xA000 + nnn.toNat ∧
    ∃ t, exec (.ldIAddr nnn) s = .next t ∧ t.i.toNat = nnn.toNat ∧ OnlyIndex [] s t

/-- ADD I,Vx: I is the sum modulo 2^16 and is never masked; under add_i_sets_vf VF is 1 when the sum exceeds 0x0FFF, else 0;
without it no register changes; nothing else changes (R131; D8). -/
def Obligations.AddIndexAndOverflow : Prop :=
  ∀ (x : Nibble) (s : State), ∃ t, exec (.addIVx x) s = .next t ∧
    t.i.toNat = (s.i.toNat + (s.getV x).toNat) % 65536 ∧
    (s.cfg.addISetsVf = true → OnlyIndex [0xF#4] s t ∧
      (t.getV 0xF#4).toNat = if s.i.toNat + (s.getV x).toNat > 0x0FFF then 1 else 0) ∧
    (s.cfg.addISetsVf = false → OnlyIndex [] s t)

/-- LD F,Vx: I is 5 * V[X] with all 8 bits of V[X] (D13, log entry 14); nothing else changes (R132). For a digit 0 to 15 that
is where its glyph stands (10_state.md R24): while the font area holds the font, whatever the rest of memory holds, and so
in memory as LOAD of any ROM that fits left it, the five bytes from I on are the glyph's rows. -/
def Obligations.FontAddressOfDigit : Prop :=
  ∀ (x : Nibble) (s : State), ∃ t, exec (.ldFVx x) s = .next t ∧ t.i.toNat = 5 * (s.getV x).toNat ∧ OnlyIndex [] s t ∧
    ∀ (g : Fin 16) (r : Fin 5), (s.getV x).toNat = g.val →
      ((∀ a, a < 80 → s.read a = fontByte s.cfg a) → t.read (t.i.toNat + r.val) = (s.cfg.font[g.val])[r.val]) ∧
      (∀ rom, romFits rom = true → s.mem = Memory.ofRom s.cfg rom →
        t.read (t.i.toNat + r.val) = (s.cfg.font[g.val])[r.val])

/-- LD B,Vx: the hundreds, tens and ones of V[X] at EA(I), EA(I+1), EA(I+2), in that order (GK3); I, the registers and every
other byte are unchanged (R133). -/
def Obligations.BcdDigitsStored : Prop :=
  ∀ (x : Nibble) (s : State), Memory.wf s.cfg s.mem = true → AccessOk s 3 → ∃ t, exec (.ldBVx x) s = .next t ∧
    (t.read (s.i.toNat % 4096)).toNat = (s.getV x).toNat / 100 ∧
    (t.read ((s.i.toNat + 1) % 4096)).toNat = (s.getV x).toNat / 10 % 10 ∧
    (t.read ((s.i.toNat + 2) % 4096)).toNat = (s.getV x).toNat % 10 ∧
    OnlyMem [s.i.toNat % 4096, (s.i.toNat + 1) % 4096, (s.i.toNat + 2) % 4096] s t ∧ t.i = s.i

/-- LD [I],Vx: byte k of the block is V[k], at EA(I + k), for k = 0 to X; every other byte and every register is unchanged;
I rises by X + 1 modulo 2^16 under load_store_increments_i, else it is unchanged (R134; the amount is D14, GK4). -/
def Obligations.BlockStore : Prop :=
  ∀ (x : Nibble) (s : State), Memory.wf s.cfg s.mem = true → AccessOk s (x.toNat + 1) →
    ∃ t, exec (.ldMemVx x) s = .next t ∧
      (∀ k : Nibble, k.toNat ≤ x.toNat → t.read ((s.i.toNat + k.toNat) % 4096) = s.getV k) ∧
      OnlyMem ((List.range (x.toNat + 1)).map (fun k => (s.i.toNat + k) % 4096)) s t ∧
      t.i.toNat = (s.i.toNat + if s.cfg.loadStoreIncrementsI = true then x.toNat + 1 else 0) % 65536

/-- LD Vx,[I]: V[k] is the byte at EA(I + k), for k = 0 to X; the registers above X, memory and all else are unchanged; I as
for the block store (R135; D14, GK4). -/
def Obligations.BlockLoad : Prop :=
  ∀ (x : Nibble) (s : State), AccessOk s (x.toNat + 1) →
    ∃ t, exec (.ldVxMem x) s = .next t ∧
      (∀ k : Nibble, k.toNat ≤ x.toNat → t.getV k = s.read ((s.i.toNat + k.toNat) % 4096)) ∧
      (∀ k : Nibble, x.toNat < k.toNat → t.getV k = s.getV k) ∧ KeepsMem [] s t ∧ t = { s with v := t.v, i := t.i } ∧
      t.i.toNat = (s.i.toNat + if s.cfg.loadStoreIncrementsI = true then x.toNat + 1 else 0) % 65536

/-- A block stored and then loaded from the same I restores V[0] to V[X], whatever happened to the registers between
(R134, R135, 20_memory.md R48). -/
def Obligations.BlockStoreThenLoadRestores : Prop :=
  ∀ (x : Nibble) (s : State), Memory.wf s.cfg s.mem = true → AccessOk s (x.toNat + 1) →
    ∃ t, exec (.ldMemVx x) s = .next t ∧
      ∀ u : State, u.mem = t.mem → u.cfg = t.cfg → u.i = s.i →
        ∃ w, exec (.ldVxMem x) u = .next w ∧ ∀ k : Nibble, k.toNat ≤ x.toNat → w.getV k = s.getV k

/-- A memory access that leaves memory without address_wrap raises OutOfBoundsAddress with the first address beyond 4095 and
has no other effect, for all four memory instructions (20_memory.md R42, R46, 60_exceptions.md R163; D10, D11). -/
def Obligations.AccessBeyondMemoryStops : Prop :=
  ∀ (x y n : Nibble) (s : State),
    (¬ AccessOk s 3 → ∃ t, exec (.ldBVx x) s = .next t ∧ OnlyRaise .outOfBoundsAddress (max s.i.toNat 4096) s t) ∧
    (¬ AccessOk s (x.toNat + 1) →
      (∃ t, exec (.ldMemVx x) s = .next t ∧ OnlyRaise .outOfBoundsAddress (max s.i.toNat 4096) s t) ∧
      (∃ t, exec (.ldVxMem x) s = .next t ∧ OnlyRaise .outOfBoundsAddress (max s.i.toNat 4096) s t)) ∧
    (¬ AccessOk s n.toNat →
      ∃ t, exec (.drwVxVyN x y n) s = .next t ∧ OnlyRaise .outOfBoundsAddress (max s.i.toNat 4096) s t)

/-- Code stored at pc is what the next fetch reads: after LD [I],Vx with X at least 1 and I equal to pc, the next word is
V[0] and V[1], big-endian (20_memory.md R50, a derived rule of the spec). -/
def Obligations.StoredCodeIsFetched : Prop :=
  ∀ (x : Nibble) (s : State), Memory.wf s.cfg s.mem = true → AccessOk s (x.toNat + 1) → 1 ≤ x.toNat → s.i = s.pc →
    ∃ t, exec (.ldMemVx x) s = .next t ∧
      ∃ w, fetchWord t = .ok w ∧ w.toNat = 256 * (s.getV 0x0#4).toNat + (s.getV 0x1#4).toNat

/-! ## Display (44_display.md) -/

/-- CLS: every pixel is off and display_dirty is reported (D20); nothing else changes (R140). -/
def Obligations.ClsBlanksDisplay : Prop :=
  ∀ s : State, ∃ t, exec .cls s = .next t ∧ (∀ px py, px < 64 → py < 32 → t.pixel px py = false) ∧
    t.effects.displayDirty = true ∧ KeepsRegs [] s t ∧ KeepsMem [] s t ∧
    t = { s with disp := t.disp, effects := { s.effects with displayDirty := true } }

/-- DRW Vx,Vy,N: a pixel changes exactly when a 1 bit of the sprite covers it, with wrap on both axes (column c is bit 7 - c,
GK2); VF is 1 when some pixel went from on to off, else 0, whatever X and Y are; display_dirty is reported (D20); the other
registers, memory and all else are unchanged (R141, R118). -/
def Obligations.DrwXorsCoveredPixels : Prop :=
  ∀ (x y n : Nibble) (s : State), AccessOk s n.toNat → ∃ t, exec (.drwVxVyN x y n) s = .next t ∧
    (∀ px py, px < 64 → py < 32 → (t.pixel px py ≠ s.pixel px py ↔ SpriteCovers s x y n px py)) ∧
    ((t.getV 0xF#4).toNat = 1 ∨ (t.getV 0xF#4).toNat = 0) ∧
    ((t.getV 0xF#4).toNat = 1 ↔ ∃ px py, px < 64 ∧ py < 32 ∧ s.pixel px py = true ∧ t.pixel px py = false) ∧
    t.effects.displayDirty = true ∧ KeepsRegs [0xF#4] s t ∧ KeepsMem [] s t ∧
    t = { s with v := t.v, disp := t.disp, effects := { s.effects with displayDirty := true } }

/-- The same sprite drawn twice at the same place, with whatever between leaving it, the display and the coordinates as they
were, restores the display; the second draw reports VF = 1 exactly when a covered pixel was off before the first (R141, the
source's double-draw property; log entry 17 says where the spec's derived remark on VF holds). -/
def Obligations.DrwTwiceRestoresDisplay : Prop :=
  ∀ (x y n : Nibble) (s : State), AccessOk s n.toNat → ∃ t, exec (.drwVxVyN x y n) s = .next t ∧
    ∀ u : State, u.disp = t.disp → u.mem = s.mem → u.cfg = s.cfg → u.i = s.i → u.getV x = s.getV x →
      u.getV y = s.getV y → ∃ w, exec (.drwVxVyN x y n) u = .next w ∧ w.disp = s.disp ∧
        ((w.getV 0xF#4).toNat = 1 ↔
          ∃ px py, px < 64 ∧ py < 32 ∧ SpriteCovers s x y n px py ∧ s.pixel px py = false)

/-! ## Keypad and timers (45_keypad_timers.md) -/

/-- SKP and SKNP: pc rises by 2 more, modulo 2^16 (D7, log entry 11), when the key named by the low 4 bits of V[X] (D12, log
entry 14) is down (SKP) or up (SKNP); nothing else changes (R150, R151). -/
def Obligations.SkipsOnKeys : Prop :=
  ∀ (x : Nibble) (s : State) (down : Bool), s.keys[(s.getV x).toNat % 16]? = some down →
    (∃ t, exec (.skpVx x) s = .next t ∧ t.pc.toNat = (s.pc.toNat + if down = true then 2 else 0) % 65536 ∧ OnlyPc s t) ∧
    (∃ t, exec (.sknpVx x) s = .next t ∧ t.pc.toNat = (s.pc.toNat + if down = true then 0 else 2) % 65536 ∧ OnlyPc s t)

/-- LD Vx,DT and LD DT,Vx move the delay timer into V[X] and V[X] into it; nothing else changes (R152, R154). -/
def Obligations.DelayTimerMoves : Prop :=
  ∀ (x : Nibble) (s : State),
    (∃ t, exec (.ldVxDt x) s = .next t ∧ t.getV x = s.dt ∧ OnlyRegs [x] s t) ∧
    (∃ t, exec (.ldDtVx x) s = .next t ∧ t.dt = s.getV x ∧ KeepsRegs [] s t ∧ KeepsMem [] s t ∧ t = { s with dt := t.dt })

/-- LD ST,Vx: ST is V[X]; sound_changed is the new level when the level (ST not 0) changed, else none; nothing else changes
(R155; D19). -/
def Obligations.SoundTimerLoadIsReported : Prop :=
  ∀ (x : Nibble) (s : State), ∃ t, exec (.ldStVx x) s = .next t ∧ t.st = s.getV x ∧
    (s.st.toNat = 0 → (s.getV x).toNat ≠ 0 → t.effects.soundChanged = some true) ∧
    (s.st.toNat ≠ 0 → (s.getV x).toNat = 0 → t.effects.soundChanged = some false) ∧
    ((s.st.toNat = 0 ↔ (s.getV x).toNat = 0) → t.effects.soundChanged = none) ∧
    KeepsRegs [] s t ∧ KeepsMem [] s t ∧
    t = { s with st := t.st, effects := { s.effects with soundChanged := t.effects.soundChanged } }

/-- LD Vx,K only enters the wait: wait_reg is X, no key is captured, the run state is WaitingForKey; V[X] keeps its value and
nothing else changes (R153; D15). -/
def Obligations.KeyWaitEntered : Prop :=
  ∀ (x : Nibble) (s : State), ∃ t, exec (.ldVxK x) s = .next t ∧ t.waitReg = x ∧ t.keyEvent = none ∧
    t.runState = .waitingForKey ∧ KeepsRegs [] s t ∧ KeepsMem [] s t ∧
    t = { s with waitReg := x, keyEvent := none, runState := .waitingForKey }

/-- The wait ends by a key-down transition followed by a STEP, and by nothing less: a press of a key that was up resolves V
with its index and pc as it was; a report that a held key is down, or a release, does not end it; a second press before the
STEP does not replace the first (40_step_cycle.md R85, R91, 45_keypad_timers.md R153; D15). -/
def Obligations.KeyWaitEndsByPress : Prop :=
  ∀ (s : State) (k : Nibble), s.runState = .waitingForKey → s.keyEvent = none →
    (s.key k = false → ∃ t, step (setKey k true s) = .next t ∧ t.runState = .running ∧ t.getV s.waitReg = k.zeroExtend 8 ∧
      t.pc = s.pc) ∧
    (s.key k = true → ∃ t, step (setKey k true s) = .next t ∧ t.runState = .waitingForKey ∧ KeepsRegs [] s t) ∧
    (∃ t, step (setKey k false s) = .next t ∧ t.runState = .waitingForKey ∧ KeepsRegs [] s t) ∧
    (s.key k = false → ∀ (j : Nibble) (d : Bool), (setKey j d (setKey k true s)).keyEvent = some k)

/-! ## The host's events -/

/-- TICK lowers each timer by one unless it is 0, in every run state, and changes nothing else (60_exceptions.md R170; D17). -/
def Obligations.TickLowersTimers : Prop :=
  ∀ s : State, ∃ t, event .tick s = .next t ∧ t.dt.toNat = s.dt.toNat - 1 ∧ t.st.toNat = s.st.toNat - 1 ∧
    KeepsRegs [] s t ∧ KeepsMem [] s t ∧ t = { s with dt := t.dt, st := t.st }

/-- A sound timer of n gives n ticks of sound: after k TICKs it holds n - k (0 once k reaches n), and the sound output is
active exactly while it is not 0 (60_exceptions.md R171, 10_state.md R29; D19). -/
def Obligations.SoundLastsAsManyTicks : Prop :=
  ∀ (s : State) (k : Nat), ∃ t, runEvents (List.replicate k .tick) s = .next t ∧ t.st.toNat = s.st.toNat - k ∧
    t.dt.toNat = s.dt.toNat - k ∧ ((outputs t).soundActive = true ↔ k < s.st.toNat)

/-- SET_KEY writes its key's level in every run state and no other key's, and captures a key-down transition exactly when
the core waits with none captured; PAUSE, RESUME and QUIT change nothing but the run state (40_step_cycle.md R88 to R91;
D15, D16, D18). -/
def Obligations.HostEventsTouchOnlyTheirState : Prop :=
  ∀ (s : State) (k : Nibble) (d : Bool),
    (∃ t, event (.setKey k d) s = .next t ∧ t.keys[k.toNat]? = some d ∧
      (∀ j, j ≠ k.toNat → t.keys[j]? = s.keys[j]?) ∧
      t.keyEvent = (if d = true ∧ s.keys[k.toNat]? = some false ∧ s.runState = .waitingForKey ∧ s.keyEvent = none
        then some k else s.keyEvent) ∧
      t = { s with keys := t.keys, keyEvent := t.keyEvent }) ∧
    (∀ e ∈ [Event.pause, Event.resume, Event.quit], ∃ t, event e s = .next t ∧ t = { s with runState := t.runState })

/-- LOAD of a ROM of at most 3584 bytes gives the reset state of 10_state.md R28 from every state, with the configuration kept
and memory holding the font at 0x000, the ROM at 0x200 and zeros elsewhere; a longer ROM fails with its length and changes
nothing (70_reset_and_hazards.md R190, R191; the zeros the source does not state are D23, the unchanged state D24). The
state the model starts from is that of the empty ROM under the recommended configuration (log entries 1 and 6). -/
def Obligations.LoadGivesResetTable : Prop :=
  (∀ (rom : List Byte) (s : State), rom.length ≤ 3584 → ∃ t, event (.load rom) s = .next t ∧ loadResult rom = .success ∧
    (∀ x, t.getV x = 0#8) ∧ t.i.toNat = 0 ∧ t.pc.toNat = 0x200 ∧ t.sp.val = 0 ∧ (∀ k, k < 16 → t.stack[k]? = some 0#16) ∧
    t.dt.toNat = 0 ∧ t.st.toNat = 0 ∧ (∀ px py, t.pixel px py = false) ∧ (∀ k, t.key k = false) ∧ t.runState = .running ∧
    t.errKind = none ∧ t.errInfo.toNat = 0 ∧ t.waitReg.toNat = 0 ∧ t.keyEvent = none ∧ t.cfg = s.cfg ∧
    (∀ (g : Fin 16) (r : Fin 5), t.read (5 * g.val + r.val) = (s.cfg.font[g.val])[r.val]) ∧
    (∀ j, ∀ h : j < rom.length, t.read (0x200 + j) = rom[j]) ∧
    (∀ a, 80 ≤ a → (a < 0x200 ∨ 0x200 + rom.length ≤ a) → t.read a = 0#8)) ∧
  (∀ (rom : List Byte) (s : State), 3584 < rom.length →
    event (.load rom) s = .next s ∧ loadResult rom = .romTooLarge rom.length) ∧
  State.reset = loadedState defaultConfig 0 []

/-- Before the first successful LOAD no other event has a meaning (it is refused), a LOAD that fits starts the core, and one
that does not leaves it unloaded (70_reset_and_hazards.md R191, R192; D24). -/
def Obligations.OnlyLoadBeforeFirstLoad : Prop :=
  ∀ (cfg : Config) (e : Event),
    (∀ rom, e = .load rom → rom.length ≤ 3584 → systemEvent cfg e none = .next (some (loadedState cfg 0 rom))) ∧
    (∀ rom, e = .load rom → 3584 < rom.length → systemEvent cfg e none = .next none) ∧
    ((∀ rom, e ≠ .load rom) → systemEvent cfg e none = .refused .beforeLoad)
end

