-- ==== Sys2Proof/Laws/State.lean ====
section
/-!
SUPPORT. One lemma per field per update of the state: what an update writes and what it leaves (40_step_cycle.md R84,
last sentence), as fields and through the reads of a register, a byte and a pixel. All are true
by rfl and in the simp set, so that no later proof unfolds a record update.
-/

namespace Sys2Proof.Machine

/-! ### setV -/

@[simp] theorem State.setV_v (s : State) (x : Nibble) (b : Byte) : (s.setV x b).v = s.v.set x.toNat b x.isLt := rfl
@[simp] theorem State.setV_i (s : State) (x : Nibble) (b : Byte) : (s.setV x b).i = s.i := rfl
@[simp] theorem State.setV_pc (s : State) (x : Nibble) (b : Byte) : (s.setV x b).pc = s.pc := rfl
@[simp] theorem State.setV_stack (s : State) (x : Nibble) (b : Byte) : (s.setV x b).stack = s.stack := rfl
@[simp] theorem State.setV_sp (s : State) (x : Nibble) (b : Byte) : (s.setV x b).sp = s.sp := rfl
@[simp] theorem State.setV_dt (s : State) (x : Nibble) (b : Byte) : (s.setV x b).dt = s.dt := rfl
@[simp] theorem State.setV_st (s : State) (x : Nibble) (b : Byte) : (s.setV x b).st = s.st := rfl
@[simp] theorem State.setV_disp (s : State) (x : Nibble) (b : Byte) : (s.setV x b).disp = s.disp := rfl
@[simp] theorem State.setV_mem (s : State) (x : Nibble) (b : Byte) : (s.setV x b).mem = s.mem := rfl
@[simp] theorem State.setV_keys (s : State) (x : Nibble) (b : Byte) : (s.setV x b).keys = s.keys := rfl
@[simp] theorem State.setV_runState (s : State) (x : Nibble) (b : Byte) : (s.setV x b).runState = s.runState := rfl
@[simp] theorem State.setV_errKind (s : State) (x : Nibble) (b : Byte) : (s.setV x b).errKind = s.errKind := rfl
@[simp] theorem State.setV_errInfo (s : State) (x : Nibble) (b : Byte) : (s.setV x b).errInfo = s.errInfo := rfl
@[simp] theorem State.setV_waitReg (s : State) (x : Nibble) (b : Byte) : (s.setV x b).waitReg = s.waitReg := rfl
@[simp] theorem State.setV_keyEvent (s : State) (x : Nibble) (b : Byte) : (s.setV x b).keyEvent = s.keyEvent := rfl
@[simp] theorem State.setV_cfg (s : State) (x : Nibble) (b : Byte) : (s.setV x b).cfg = s.cfg := rfl
@[simp] theorem State.setV_draws (s : State) (x : Nibble) (b : Byte) : (s.setV x b).draws = s.draws := rfl
@[simp] theorem State.setV_effects (s : State) (x : Nibble) (b : Byte) : (s.setV x b).effects = s.effects := rfl
@[simp] theorem State.setV_read (s : State) (x : Nibble) (b : Byte) (a' : Nat) : (s.setV x b).read a' = s.read a' := rfl
@[simp] theorem State.setV_pixel (s : State) (x : Nibble) (b : Byte) (px py : Nat) : (s.setV x b).pixel px py = s.pixel px py := rfl

/-! ### setFlag -/

@[simp] theorem State.setFlag_i (s : State) (f : Bool) : (s.setFlag f).i = s.i := rfl
@[simp] theorem State.setFlag_pc (s : State) (f : Bool) : (s.setFlag f).pc = s.pc := rfl
@[simp] theorem State.setFlag_stack (s : State) (f : Bool) : (s.setFlag f).stack = s.stack := rfl
@[simp] theorem State.setFlag_sp (s : State) (f : Bool) : (s.setFlag f).sp = s.sp := rfl
@[simp] theorem State.setFlag_dt (s : State) (f : Bool) : (s.setFlag f).dt = s.dt := rfl
@[simp] theorem State.setFlag_st (s : State) (f : Bool) : (s.setFlag f).st = s.st := rfl
@[simp] theorem State.setFlag_disp (s : State) (f : Bool) : (s.setFlag f).disp = s.disp := rfl
@[simp] theorem State.setFlag_mem (s : State) (f : Bool) : (s.setFlag f).mem = s.mem := rfl
@[simp] theorem State.setFlag_keys (s : State) (f : Bool) : (s.setFlag f).keys = s.keys := rfl
@[simp] theorem State.setFlag_runState (s : State) (f : Bool) : (s.setFlag f).runState = s.runState := rfl
@[simp] theorem State.setFlag_errKind (s : State) (f : Bool) : (s.setFlag f).errKind = s.errKind := rfl
@[simp] theorem State.setFlag_errInfo (s : State) (f : Bool) : (s.setFlag f).errInfo = s.errInfo := rfl
@[simp] theorem State.setFlag_waitReg (s : State) (f : Bool) : (s.setFlag f).waitReg = s.waitReg := rfl
@[simp] theorem State.setFlag_keyEvent (s : State) (f : Bool) : (s.setFlag f).keyEvent = s.keyEvent := rfl
@[simp] theorem State.setFlag_cfg (s : State) (f : Bool) : (s.setFlag f).cfg = s.cfg := rfl
@[simp] theorem State.setFlag_draws (s : State) (f : Bool) : (s.setFlag f).draws = s.draws := rfl
@[simp] theorem State.setFlag_effects (s : State) (f : Bool) : (s.setFlag f).effects = s.effects := rfl
@[simp] theorem State.setFlag_read (s : State) (f : Bool) (a' : Nat) : (s.setFlag f).read a' = s.read a' := rfl
@[simp] theorem State.setFlag_pixel (s : State) (f : Bool) (px py : Nat) : (s.setFlag f).pixel px py = s.pixel px py := rfl

/-! ### setI -/

@[simp] theorem State.setI_v (s : State) (w : Word) : (s.setI w).v = s.v := rfl
@[simp] theorem State.setI_i (s : State) (w : Word) : (s.setI w).i = w := rfl
@[simp] theorem State.setI_pc (s : State) (w : Word) : (s.setI w).pc = s.pc := rfl
@[simp] theorem State.setI_stack (s : State) (w : Word) : (s.setI w).stack = s.stack := rfl
@[simp] theorem State.setI_sp (s : State) (w : Word) : (s.setI w).sp = s.sp := rfl
@[simp] theorem State.setI_dt (s : State) (w : Word) : (s.setI w).dt = s.dt := rfl
@[simp] theorem State.setI_st (s : State) (w : Word) : (s.setI w).st = s.st := rfl
@[simp] theorem State.setI_disp (s : State) (w : Word) : (s.setI w).disp = s.disp := rfl
@[simp] theorem State.setI_mem (s : State) (w : Word) : (s.setI w).mem = s.mem := rfl
@[simp] theorem State.setI_keys (s : State) (w : Word) : (s.setI w).keys = s.keys := rfl
@[simp] theorem State.setI_runState (s : State) (w : Word) : (s.setI w).runState = s.runState := rfl
@[simp] theorem State.setI_errKind (s : State) (w : Word) : (s.setI w).errKind = s.errKind := rfl
@[simp] theorem State.setI_errInfo (s : State) (w : Word) : (s.setI w).errInfo = s.errInfo := rfl
@[simp] theorem State.setI_waitReg (s : State) (w : Word) : (s.setI w).waitReg = s.waitReg := rfl
@[simp] theorem State.setI_keyEvent (s : State) (w : Word) : (s.setI w).keyEvent = s.keyEvent := rfl
@[simp] theorem State.setI_cfg (s : State) (w : Word) : (s.setI w).cfg = s.cfg := rfl
@[simp] theorem State.setI_draws (s : State) (w : Word) : (s.setI w).draws = s.draws := rfl
@[simp] theorem State.setI_effects (s : State) (w : Word) : (s.setI w).effects = s.effects := rfl
@[simp] theorem State.setI_getV (s : State) (w : Word) (y : Nibble) : (s.setI w).getV y = s.getV y := rfl
@[simp] theorem State.setI_read (s : State) (w : Word) (a' : Nat) : (s.setI w).read a' = s.read a' := rfl
@[simp] theorem State.setI_pixel (s : State) (w : Word) (px py : Nat) : (s.setI w).pixel px py = s.pixel px py := rfl

/-! ### setPc -/

@[simp] theorem State.setPc_v (s : State) (w : Word) : (s.setPc w).v = s.v := rfl
@[simp] theorem State.setPc_i (s : State) (w : Word) : (s.setPc w).i = s.i := rfl
@[simp] theorem State.setPc_pc (s : State) (w : Word) : (s.setPc w).pc = w := rfl
@[simp] theorem State.setPc_stack (s : State) (w : Word) : (s.setPc w).stack = s.stack := rfl
@[simp] theorem State.setPc_sp (s : State) (w : Word) : (s.setPc w).sp = s.sp := rfl
@[simp] theorem State.setPc_dt (s : State) (w : Word) : (s.setPc w).dt = s.dt := rfl
@[simp] theorem State.setPc_st (s : State) (w : Word) : (s.setPc w).st = s.st := rfl
@[simp] theorem State.setPc_disp (s : State) (w : Word) : (s.setPc w).disp = s.disp := rfl
@[simp] theorem State.setPc_mem (s : State) (w : Word) : (s.setPc w).mem = s.mem := rfl
@[simp] theorem State.setPc_keys (s : State) (w : Word) : (s.setPc w).keys = s.keys := rfl
@[simp] theorem State.setPc_runState (s : State) (w : Word) : (s.setPc w).runState = s.runState := rfl
@[simp] theorem State.setPc_errKind (s : State) (w : Word) : (s.setPc w).errKind = s.errKind := rfl
@[simp] theorem State.setPc_errInfo (s : State) (w : Word) : (s.setPc w).errInfo = s.errInfo := rfl
@[simp] theorem State.setPc_waitReg (s : State) (w : Word) : (s.setPc w).waitReg = s.waitReg := rfl
@[simp] theorem State.setPc_keyEvent (s : State) (w : Word) : (s.setPc w).keyEvent = s.keyEvent := rfl
@[simp] theorem State.setPc_cfg (s : State) (w : Word) : (s.setPc w).cfg = s.cfg := rfl
@[simp] theorem State.setPc_draws (s : State) (w : Word) : (s.setPc w).draws = s.draws := rfl
@[simp] theorem State.setPc_effects (s : State) (w : Word) : (s.setPc w).effects = s.effects := rfl
@[simp] theorem State.setPc_getV (s : State) (w : Word) (y : Nibble) : (s.setPc w).getV y = s.getV y := rfl
@[simp] theorem State.setPc_read (s : State) (w : Word) (a' : Nat) : (s.setPc w).read a' = s.read a' := rfl
@[simp] theorem State.setPc_pixel (s : State) (w : Word) (px py : Nat) : (s.setPc w).pixel px py = s.pixel px py := rfl

/-! ### advance -/

@[simp] theorem State.advance_v (s : State) : s.advance.v = s.v := rfl
@[simp] theorem State.advance_i (s : State) : s.advance.i = s.i := rfl
@[simp] theorem State.advance_pc (s : State) : s.advance.pc = s.pc + 2#16 := rfl
@[simp] theorem State.advance_stack (s : State) : s.advance.stack = s.stack := rfl
@[simp] theorem State.advance_sp (s : State) : s.advance.sp = s.sp := rfl
@[simp] theorem State.advance_dt (s : State) : s.advance.dt = s.dt := rfl
@[simp] theorem State.advance_st (s : State) : s.advance.st = s.st := rfl
@[simp] theorem State.advance_disp (s : State) : s.advance.disp = s.disp := rfl
@[simp] theorem State.advance_mem (s : State) : s.advance.mem = s.mem := rfl
@[simp] theorem State.advance_keys (s : State) : s.advance.keys = s.keys := rfl
@[simp] theorem State.advance_runState (s : State) : s.advance.runState = s.runState := rfl
@[simp] theorem State.advance_errKind (s : State) : s.advance.errKind = s.errKind := rfl
@[simp] theorem State.advance_errInfo (s : State) : s.advance.errInfo = s.errInfo := rfl
@[simp] theorem State.advance_waitReg (s : State) : s.advance.waitReg = s.waitReg := rfl
@[simp] theorem State.advance_keyEvent (s : State) : s.advance.keyEvent = s.keyEvent := rfl
@[simp] theorem State.advance_cfg (s : State) : s.advance.cfg = s.cfg := rfl
@[simp] theorem State.advance_draws (s : State) : s.advance.draws = s.draws := rfl
@[simp] theorem State.advance_effects (s : State) : s.advance.effects = s.effects := rfl
@[simp] theorem State.advance_getV (s : State) (y : Nibble) : s.advance.getV y = s.getV y := rfl
@[simp] theorem State.advance_read (s : State) (a' : Nat) : s.advance.read a' = s.read a' := rfl
@[simp] theorem State.advance_pixel (s : State) (px py : Nat) : s.advance.pixel px py = s.pixel px py := rfl

/-! ### setDt -/

@[simp] theorem State.setDt_v (s : State) (b : Byte) : (s.setDt b).v = s.v := rfl
@[simp] theorem State.setDt_i (s : State) (b : Byte) : (s.setDt b).i = s.i := rfl
@[simp] theorem State.setDt_pc (s : State) (b : Byte) : (s.setDt b).pc = s.pc := rfl
@[simp] theorem State.setDt_stack (s : State) (b : Byte) : (s.setDt b).stack = s.stack := rfl
@[simp] theorem State.setDt_sp (s : State) (b : Byte) : (s.setDt b).sp = s.sp := rfl
@[simp] theorem State.setDt_dt (s : State) (b : Byte) : (s.setDt b).dt = b := rfl
@[simp] theorem State.setDt_st (s : State) (b : Byte) : (s.setDt b).st = s.st := rfl
@[simp] theorem State.setDt_disp (s : State) (b : Byte) : (s.setDt b).disp = s.disp := rfl
@[simp] theorem State.setDt_mem (s : State) (b : Byte) : (s.setDt b).mem = s.mem := rfl
@[simp] theorem State.setDt_keys (s : State) (b : Byte) : (s.setDt b).keys = s.keys := rfl
@[simp] theorem State.setDt_runState (s : State) (b : Byte) : (s.setDt b).runState = s.runState := rfl
@[simp] theorem State.setDt_errKind (s : State) (b : Byte) : (s.setDt b).errKind = s.errKind := rfl
@[simp] theorem State.setDt_errInfo (s : State) (b : Byte) : (s.setDt b).errInfo = s.errInfo := rfl
@[simp] theorem State.setDt_waitReg (s : State) (b : Byte) : (s.setDt b).waitReg = s.waitReg := rfl
@[simp] theorem State.setDt_keyEvent (s : State) (b : Byte) : (s.setDt b).keyEvent = s.keyEvent := rfl
@[simp] theorem State.setDt_cfg (s : State) (b : Byte) : (s.setDt b).cfg = s.cfg := rfl
@[simp] theorem State.setDt_draws (s : State) (b : Byte) : (s.setDt b).draws = s.draws := rfl
@[simp] theorem State.setDt_effects (s : State) (b : Byte) : (s.setDt b).effects = s.effects := rfl
@[simp] theorem State.setDt_getV (s : State) (b : Byte) (y : Nibble) : (s.setDt b).getV y = s.getV y := rfl
@[simp] theorem State.setDt_read (s : State) (b : Byte) (a' : Nat) : (s.setDt b).read a' = s.read a' := rfl
@[simp] theorem State.setDt_pixel (s : State) (b : Byte) (px py : Nat) : (s.setDt b).pixel px py = s.pixel px py := rfl

/-! ### setSt -/

@[simp] theorem State.setSt_v (s : State) (b : Byte) : (s.setSt b).v = s.v := rfl
@[simp] theorem State.setSt_i (s : State) (b : Byte) : (s.setSt b).i = s.i := rfl
@[simp] theorem State.setSt_pc (s : State) (b : Byte) : (s.setSt b).pc = s.pc := rfl
@[simp] theorem State.setSt_stack (s : State) (b : Byte) : (s.setSt b).stack = s.stack := rfl
@[simp] theorem State.setSt_sp (s : State) (b : Byte) : (s.setSt b).sp = s.sp := rfl
@[simp] theorem State.setSt_dt (s : State) (b : Byte) : (s.setSt b).dt = s.dt := rfl
@[simp] theorem State.setSt_st (s : State) (b : Byte) : (s.setSt b).st = b := rfl
@[simp] theorem State.setSt_disp (s : State) (b : Byte) : (s.setSt b).disp = s.disp := rfl
@[simp] theorem State.setSt_mem (s : State) (b : Byte) : (s.setSt b).mem = s.mem := rfl
@[simp] theorem State.setSt_keys (s : State) (b : Byte) : (s.setSt b).keys = s.keys := rfl
@[simp] theorem State.setSt_runState (s : State) (b : Byte) : (s.setSt b).runState = s.runState := rfl
@[simp] theorem State.setSt_errKind (s : State) (b : Byte) : (s.setSt b).errKind = s.errKind := rfl
@[simp] theorem State.setSt_errInfo (s : State) (b : Byte) : (s.setSt b).errInfo = s.errInfo := rfl
@[simp] theorem State.setSt_waitReg (s : State) (b : Byte) : (s.setSt b).waitReg = s.waitReg := rfl
@[simp] theorem State.setSt_keyEvent (s : State) (b : Byte) : (s.setSt b).keyEvent = s.keyEvent := rfl
@[simp] theorem State.setSt_cfg (s : State) (b : Byte) : (s.setSt b).cfg = s.cfg := rfl
@[simp] theorem State.setSt_draws (s : State) (b : Byte) : (s.setSt b).draws = s.draws := rfl
@[simp] theorem State.setSt_effects (s : State) (b : Byte) : (s.setSt b).effects = s.effects := rfl
@[simp] theorem State.setSt_getV (s : State) (b : Byte) (y : Nibble) : (s.setSt b).getV y = s.getV y := rfl
@[simp] theorem State.setSt_read (s : State) (b : Byte) (a' : Nat) : (s.setSt b).read a' = s.read a' := rfl
@[simp] theorem State.setSt_pixel (s : State) (b : Byte) (px py : Nat) : (s.setSt b).pixel px py = s.pixel px py := rfl

/-! ### clearEffects -/

@[simp] theorem State.clearEffects_v (s : State) : s.clearEffects.v = s.v := rfl
@[simp] theorem State.clearEffects_i (s : State) : s.clearEffects.i = s.i := rfl
@[simp] theorem State.clearEffects_pc (s : State) : s.clearEffects.pc = s.pc := rfl
@[simp] theorem State.clearEffects_stack (s : State) : s.clearEffects.stack = s.stack := rfl
@[simp] theorem State.clearEffects_sp (s : State) : s.clearEffects.sp = s.sp := rfl
@[simp] theorem State.clearEffects_dt (s : State) : s.clearEffects.dt = s.dt := rfl
@[simp] theorem State.clearEffects_st (s : State) : s.clearEffects.st = s.st := rfl
@[simp] theorem State.clearEffects_disp (s : State) : s.clearEffects.disp = s.disp := rfl
@[simp] theorem State.clearEffects_mem (s : State) : s.clearEffects.mem = s.mem := rfl
@[simp] theorem State.clearEffects_keys (s : State) : s.clearEffects.keys = s.keys := rfl
@[simp] theorem State.clearEffects_runState (s : State) : s.clearEffects.runState = s.runState := rfl
@[simp] theorem State.clearEffects_errKind (s : State) : s.clearEffects.errKind = s.errKind := rfl
@[simp] theorem State.clearEffects_errInfo (s : State) : s.clearEffects.errInfo = s.errInfo := rfl
@[simp] theorem State.clearEffects_waitReg (s : State) : s.clearEffects.waitReg = s.waitReg := rfl
@[simp] theorem State.clearEffects_keyEvent (s : State) : s.clearEffects.keyEvent = s.keyEvent := rfl
@[simp] theorem State.clearEffects_cfg (s : State) : s.clearEffects.cfg = s.cfg := rfl
@[simp] theorem State.clearEffects_draws (s : State) : s.clearEffects.draws = s.draws := rfl
@[simp] theorem State.clearEffects_effects (s : State) : s.clearEffects.effects = noEffects := rfl
@[simp] theorem State.clearEffects_getV (s : State) (y : Nibble) : s.clearEffects.getV y = s.getV y := rfl
@[simp] theorem State.clearEffects_read (s : State) (a' : Nat) : s.clearEffects.read a' = s.read a' := rfl
@[simp] theorem State.clearEffects_pixel (s : State) (px py : Nat) : s.clearEffects.pixel px py = s.pixel px py := rfl

/-! ### markDirty -/

@[simp] theorem State.markDirty_v (s : State) : s.markDirty.v = s.v := rfl
@[simp] theorem State.markDirty_i (s : State) : s.markDirty.i = s.i := rfl
@[simp] theorem State.markDirty_pc (s : State) : s.markDirty.pc = s.pc := rfl
@[simp] theorem State.markDirty_stack (s : State) : s.markDirty.stack = s.stack := rfl
@[simp] theorem State.markDirty_sp (s : State) : s.markDirty.sp = s.sp := rfl
@[simp] theorem State.markDirty_dt (s : State) : s.markDirty.dt = s.dt := rfl
@[simp] theorem State.markDirty_st (s : State) : s.markDirty.st = s.st := rfl
@[simp] theorem State.markDirty_disp (s : State) : s.markDirty.disp = s.disp := rfl
@[simp] theorem State.markDirty_mem (s : State) : s.markDirty.mem = s.mem := rfl
@[simp] theorem State.markDirty_keys (s : State) : s.markDirty.keys = s.keys := rfl
@[simp] theorem State.markDirty_runState (s : State) : s.markDirty.runState = s.runState := rfl
@[simp] theorem State.markDirty_errKind (s : State) : s.markDirty.errKind = s.errKind := rfl
@[simp] theorem State.markDirty_errInfo (s : State) : s.markDirty.errInfo = s.errInfo := rfl
@[simp] theorem State.markDirty_waitReg (s : State) : s.markDirty.waitReg = s.waitReg := rfl
@[simp] theorem State.markDirty_keyEvent (s : State) : s.markDirty.keyEvent = s.keyEvent := rfl
@[simp] theorem State.markDirty_cfg (s : State) : s.markDirty.cfg = s.cfg := rfl
@[simp] theorem State.markDirty_draws (s : State) : s.markDirty.draws = s.draws := rfl
@[simp] theorem State.markDirty_effects (s : State) : s.markDirty.effects = { s.effects with displayDirty := true } := rfl
@[simp] theorem State.markDirty_getV (s : State) (y : Nibble) : s.markDirty.getV y = s.getV y := rfl
@[simp] theorem State.markDirty_read (s : State) (a' : Nat) : s.markDirty.read a' = s.read a' := rfl
@[simp] theorem State.markDirty_pixel (s : State) (px py : Nat) : s.markDirty.pixel px py = s.pixel px py := rfl

/-! ### reportSound -/

@[simp] theorem State.reportSound_v (s : State) (c : Option Bool) : (s.reportSound c).v = s.v := rfl
@[simp] theorem State.reportSound_i (s : State) (c : Option Bool) : (s.reportSound c).i = s.i := rfl
@[simp] theorem State.reportSound_pc (s : State) (c : Option Bool) : (s.reportSound c).pc = s.pc := rfl
@[simp] theorem State.reportSound_stack (s : State) (c : Option Bool) : (s.reportSound c).stack = s.stack := rfl
@[simp] theorem State.reportSound_sp (s : State) (c : Option Bool) : (s.reportSound c).sp = s.sp := rfl
@[simp] theorem State.reportSound_dt (s : State) (c : Option Bool) : (s.reportSound c).dt = s.dt := rfl
@[simp] theorem State.reportSound_st (s : State) (c : Option Bool) : (s.reportSound c).st = s.st := rfl
@[simp] theorem State.reportSound_disp (s : State) (c : Option Bool) : (s.reportSound c).disp = s.disp := rfl
@[simp] theorem State.reportSound_mem (s : State) (c : Option Bool) : (s.reportSound c).mem = s.mem := rfl
@[simp] theorem State.reportSound_keys (s : State) (c : Option Bool) : (s.reportSound c).keys = s.keys := rfl
@[simp] theorem State.reportSound_runState (s : State) (c : Option Bool) : (s.reportSound c).runState = s.runState := rfl
@[simp] theorem State.reportSound_errKind (s : State) (c : Option Bool) : (s.reportSound c).errKind = s.errKind := rfl
@[simp] theorem State.reportSound_errInfo (s : State) (c : Option Bool) : (s.reportSound c).errInfo = s.errInfo := rfl
@[simp] theorem State.reportSound_waitReg (s : State) (c : Option Bool) : (s.reportSound c).waitReg = s.waitReg := rfl
@[simp] theorem State.reportSound_keyEvent (s : State) (c : Option Bool) : (s.reportSound c).keyEvent = s.keyEvent := rfl
@[simp] theorem State.reportSound_cfg (s : State) (c : Option Bool) : (s.reportSound c).cfg = s.cfg := rfl
@[simp] theorem State.reportSound_draws (s : State) (c : Option Bool) : (s.reportSound c).draws = s.draws := rfl
@[simp] theorem State.reportSound_effects (s : State) (c : Option Bool) : (s.reportSound c).effects = { s.effects with soundChanged := c } := rfl
@[simp] theorem State.reportSound_getV (s : State) (c : Option Bool) (y : Nibble) : (s.reportSound c).getV y = s.getV y := rfl
@[simp] theorem State.reportSound_read (s : State) (c : Option Bool) (a' : Nat) : (s.reportSound c).read a' = s.read a' := rfl
@[simp] theorem State.reportSound_pixel (s : State) (c : Option Bool) (px py : Nat) : (s.reportSound c).pixel px py = s.pixel px py := rfl

/-! ### reportInvalid -/

@[simp] theorem State.reportInvalid_v (s : State) (w : Word) : (s.reportInvalid w).v = s.v := rfl
@[simp] theorem State.reportInvalid_i (s : State) (w : Word) : (s.reportInvalid w).i = s.i := rfl
@[simp] theorem State.reportInvalid_pc (s : State) (w : Word) : (s.reportInvalid w).pc = s.pc := rfl
@[simp] theorem State.reportInvalid_stack (s : State) (w : Word) : (s.reportInvalid w).stack = s.stack := rfl
@[simp] theorem State.reportInvalid_sp (s : State) (w : Word) : (s.reportInvalid w).sp = s.sp := rfl
@[simp] theorem State.reportInvalid_dt (s : State) (w : Word) : (s.reportInvalid w).dt = s.dt := rfl
@[simp] theorem State.reportInvalid_st (s : State) (w : Word) : (s.reportInvalid w).st = s.st := rfl
@[simp] theorem State.reportInvalid_disp (s : State) (w : Word) : (s.reportInvalid w).disp = s.disp := rfl
@[simp] theorem State.reportInvalid_mem (s : State) (w : Word) : (s.reportInvalid w).mem = s.mem := rfl
@[simp] theorem State.reportInvalid_keys (s : State) (w : Word) : (s.reportInvalid w).keys = s.keys := rfl
@[simp] theorem State.reportInvalid_runState (s : State) (w : Word) : (s.reportInvalid w).runState = s.runState := rfl
@[simp] theorem State.reportInvalid_errKind (s : State) (w : Word) : (s.reportInvalid w).errKind = s.errKind := rfl
@[simp] theorem State.reportInvalid_errInfo (s : State) (w : Word) : (s.reportInvalid w).errInfo = s.errInfo := rfl
@[simp] theorem State.reportInvalid_waitReg (s : State) (w : Word) : (s.reportInvalid w).waitReg = s.waitReg := rfl
@[simp] theorem State.reportInvalid_keyEvent (s : State) (w : Word) : (s.reportInvalid w).keyEvent = s.keyEvent := rfl
@[simp] theorem State.reportInvalid_cfg (s : State) (w : Word) : (s.reportInvalid w).cfg = s.cfg := rfl
@[simp] theorem State.reportInvalid_draws (s : State) (w : Word) : (s.reportInvalid w).draws = s.draws := rfl
@[simp] theorem State.reportInvalid_effects (s : State) (w : Word) : (s.reportInvalid w).effects = { s.effects with invalidOpcode := some w } := rfl
@[simp] theorem State.reportInvalid_getV (s : State) (w : Word) (y : Nibble) : (s.reportInvalid w).getV y = s.getV y := rfl
@[simp] theorem State.reportInvalid_read (s : State) (w : Word) (a' : Nat) : (s.reportInvalid w).read a' = s.read a' := rfl
@[simp] theorem State.reportInvalid_pixel (s : State) (w : Word) (px py : Nat) : (s.reportInvalid w).pixel px py = s.pixel px py := rfl

/-! ### reportError -/

@[simp] theorem State.reportError_v (s : State) (e : Option (FatalError × ErrInfo)) : (s.reportError e).v = s.v := rfl
@[simp] theorem State.reportError_i (s : State) (e : Option (FatalError × ErrInfo)) : (s.reportError e).i = s.i := rfl
@[simp] theorem State.reportError_pc (s : State) (e : Option (FatalError × ErrInfo)) : (s.reportError e).pc = s.pc := rfl
@[simp] theorem State.reportError_stack (s : State) (e : Option (FatalError × ErrInfo)) : (s.reportError e).stack = s.stack := rfl
@[simp] theorem State.reportError_sp (s : State) (e : Option (FatalError × ErrInfo)) : (s.reportError e).sp = s.sp := rfl
@[simp] theorem State.reportError_dt (s : State) (e : Option (FatalError × ErrInfo)) : (s.reportError e).dt = s.dt := rfl
@[simp] theorem State.reportError_st (s : State) (e : Option (FatalError × ErrInfo)) : (s.reportError e).st = s.st := rfl
@[simp] theorem State.reportError_disp (s : State) (e : Option (FatalError × ErrInfo)) : (s.reportError e).disp = s.disp := rfl
@[simp] theorem State.reportError_mem (s : State) (e : Option (FatalError × ErrInfo)) : (s.reportError e).mem = s.mem := rfl
@[simp] theorem State.reportError_keys (s : State) (e : Option (FatalError × ErrInfo)) : (s.reportError e).keys = s.keys := rfl
@[simp] theorem State.reportError_runState (s : State) (e : Option (FatalError × ErrInfo)) : (s.reportError e).runState = s.runState := rfl
@[simp] theorem State.reportError_errKind (s : State) (e : Option (FatalError × ErrInfo)) : (s.reportError e).errKind = s.errKind := rfl
@[simp] theorem State.reportError_errInfo (s : State) (e : Option (FatalError × ErrInfo)) : (s.reportError e).errInfo = s.errInfo := rfl
@[simp] theorem State.reportError_waitReg (s : State) (e : Option (FatalError × ErrInfo)) : (s.reportError e).waitReg = s.waitReg := rfl
@[simp] theorem State.reportError_keyEvent (s : State) (e : Option (FatalError × ErrInfo)) : (s.reportError e).keyEvent = s.keyEvent := rfl
@[simp] theorem State.reportError_cfg (s : State) (e : Option (FatalError × ErrInfo)) : (s.reportError e).cfg = s.cfg := rfl
@[simp] theorem State.reportError_draws (s : State) (e : Option (FatalError × ErrInfo)) : (s.reportError e).draws = s.draws := rfl
@[simp] theorem State.reportError_effects (s : State) (e : Option (FatalError × ErrInfo)) : (s.reportError e).effects = { s.effects with error := e } := rfl
@[simp] theorem State.reportError_getV (s : State) (e : Option (FatalError × ErrInfo)) (y : Nibble) : (s.reportError e).getV y = s.getV y := rfl
@[simp] theorem State.reportError_read (s : State) (e : Option (FatalError × ErrInfo)) (a' : Nat) : (s.reportError e).read a' = s.read a' := rfl
@[simp] theorem State.reportError_pixel (s : State) (e : Option (FatalError × ErrInfo)) (px py : Nat) : (s.reportError e).pixel px py = s.pixel px py := rfl

/-! ### raise -/

@[simp] theorem State.raise_v (s : State) (k : FatalError) (n : Nat) : (s.raise k n).v = s.v := rfl
@[simp] theorem State.raise_i (s : State) (k : FatalError) (n : Nat) : (s.raise k n).i = s.i := rfl
@[simp] theorem State.raise_pc (s : State) (k : FatalError) (n : Nat) : (s.raise k n).pc = s.pc := rfl
@[simp] theorem State.raise_stack (s : State) (k : FatalError) (n : Nat) : (s.raise k n).stack = s.stack := rfl
@[simp] theorem State.raise_sp (s : State) (k : FatalError) (n : Nat) : (s.raise k n).sp = s.sp := rfl
@[simp] theorem State.raise_dt (s : State) (k : FatalError) (n : Nat) : (s.raise k n).dt = s.dt := rfl
@[simp] theorem State.raise_st (s : State) (k : FatalError) (n : Nat) : (s.raise k n).st = s.st := rfl
@[simp] theorem State.raise_disp (s : State) (k : FatalError) (n : Nat) : (s.raise k n).disp = s.disp := rfl
@[simp] theorem State.raise_mem (s : State) (k : FatalError) (n : Nat) : (s.raise k n).mem = s.mem := rfl
@[simp] theorem State.raise_keys (s : State) (k : FatalError) (n : Nat) : (s.raise k n).keys = s.keys := rfl
@[simp] theorem State.raise_runState (s : State) (k : FatalError) (n : Nat) : (s.raise k n).runState = .error := rfl
@[simp] theorem State.raise_errKind (s : State) (k : FatalError) (n : Nat) : (s.raise k n).errKind = some k := rfl
@[simp] theorem State.raise_errInfo (s : State) (k : FatalError) (n : Nat) : (s.raise k n).errInfo = BitVec.ofNat 17 n := rfl
@[simp] theorem State.raise_waitReg (s : State) (k : FatalError) (n : Nat) : (s.raise k n).waitReg = s.waitReg := rfl
@[simp] theorem State.raise_keyEvent (s : State) (k : FatalError) (n : Nat) : (s.raise k n).keyEvent = s.keyEvent := rfl
@[simp] theorem State.raise_cfg (s : State) (k : FatalError) (n : Nat) : (s.raise k n).cfg = s.cfg := rfl
@[simp] theorem State.raise_draws (s : State) (k : FatalError) (n : Nat) : (s.raise k n).draws = s.draws := rfl
@[simp] theorem State.raise_effects (s : State) (k : FatalError) (n : Nat) : (s.raise k n).effects = { s.effects with error := some (k, BitVec.ofNat 17 n) } := rfl
@[simp] theorem State.raise_getV (s : State) (k : FatalError) (n : Nat) (y : Nibble) : (s.raise k n).getV y = s.getV y := rfl
@[simp] theorem State.raise_read (s : State) (k : FatalError) (n : Nat) (a' : Nat) : (s.raise k n).read a' = s.read a' := rfl
@[simp] theorem State.raise_pixel (s : State) (k : FatalError) (n : Nat) (px py : Nat) : (s.raise k n).pixel px py = s.pixel px py := rfl

/-! ### write -/

@[simp] theorem State.write_v (s : State) (a : Nat) (b : Byte) : (s.write a b).v = s.v := rfl
@[simp] theorem State.write_i (s : State) (a : Nat) (b : Byte) : (s.write a b).i = s.i := rfl
@[simp] theorem State.write_pc (s : State) (a : Nat) (b : Byte) : (s.write a b).pc = s.pc := rfl
@[simp] theorem State.write_stack (s : State) (a : Nat) (b : Byte) : (s.write a b).stack = s.stack := rfl
@[simp] theorem State.write_sp (s : State) (a : Nat) (b : Byte) : (s.write a b).sp = s.sp := rfl
@[simp] theorem State.write_dt (s : State) (a : Nat) (b : Byte) : (s.write a b).dt = s.dt := rfl
@[simp] theorem State.write_st (s : State) (a : Nat) (b : Byte) : (s.write a b).st = s.st := rfl
@[simp] theorem State.write_disp (s : State) (a : Nat) (b : Byte) : (s.write a b).disp = s.disp := rfl
@[simp] theorem State.write_mem (s : State) (a : Nat) (b : Byte) : (s.write a b).mem = Memory.write s.cfg a b s.mem := rfl
@[simp] theorem State.write_keys (s : State) (a : Nat) (b : Byte) : (s.write a b).keys = s.keys := rfl
@[simp] theorem State.write_runState (s : State) (a : Nat) (b : Byte) : (s.write a b).runState = s.runState := rfl
@[simp] theorem State.write_errKind (s : State) (a : Nat) (b : Byte) : (s.write a b).errKind = s.errKind := rfl
@[simp] theorem State.write_errInfo (s : State) (a : Nat) (b : Byte) : (s.write a b).errInfo = s.errInfo := rfl
@[simp] theorem State.write_waitReg (s : State) (a : Nat) (b : Byte) : (s.write a b).waitReg = s.waitReg := rfl
@[simp] theorem State.write_keyEvent (s : State) (a : Nat) (b : Byte) : (s.write a b).keyEvent = s.keyEvent := rfl
@[simp] theorem State.write_cfg (s : State) (a : Nat) (b : Byte) : (s.write a b).cfg = s.cfg := rfl
@[simp] theorem State.write_draws (s : State) (a : Nat) (b : Byte) : (s.write a b).draws = s.draws := rfl
@[simp] theorem State.write_effects (s : State) (a : Nat) (b : Byte) : (s.write a b).effects = s.effects := rfl
@[simp] theorem State.write_getV (s : State) (a : Nat) (b : Byte) (y : Nibble) : (s.write a b).getV y = s.getV y := rfl
@[simp] theorem State.write_pixel (s : State) (a : Nat) (b : Byte) (px py : Nat) : (s.write a b).pixel px py = s.pixel px py := rfl

/-! ### setDisp -/

@[simp] theorem State.setDisp_v (s : State) (d : BitVec 2048) : (s.setDisp d).v = s.v := rfl
@[simp] theorem State.setDisp_i (s : State) (d : BitVec 2048) : (s.setDisp d).i = s.i := rfl
@[simp] theorem State.setDisp_pc (s : State) (d : BitVec 2048) : (s.setDisp d).pc = s.pc := rfl
@[simp] theorem State.setDisp_stack (s : State) (d : BitVec 2048) : (s.setDisp d).stack = s.stack := rfl
@[simp] theorem State.setDisp_sp (s : State) (d : BitVec 2048) : (s.setDisp d).sp = s.sp := rfl
@[simp] theorem State.setDisp_dt (s : State) (d : BitVec 2048) : (s.setDisp d).dt = s.dt := rfl
@[simp] theorem State.setDisp_st (s : State) (d : BitVec 2048) : (s.setDisp d).st = s.st := rfl
@[simp] theorem State.setDisp_disp (s : State) (d : BitVec 2048) : (s.setDisp d).disp = d := rfl
@[simp] theorem State.setDisp_mem (s : State) (d : BitVec 2048) : (s.setDisp d).mem = s.mem := rfl
@[simp] theorem State.setDisp_keys (s : State) (d : BitVec 2048) : (s.setDisp d).keys = s.keys := rfl
@[simp] theorem State.setDisp_runState (s : State) (d : BitVec 2048) : (s.setDisp d).runState = s.runState := rfl
@[simp] theorem State.setDisp_errKind (s : State) (d : BitVec 2048) : (s.setDisp d).errKind = s.errKind := rfl
@[simp] theorem State.setDisp_errInfo (s : State) (d : BitVec 2048) : (s.setDisp d).errInfo = s.errInfo := rfl
@[simp] theorem State.setDisp_waitReg (s : State) (d : BitVec 2048) : (s.setDisp d).waitReg = s.waitReg := rfl
@[simp] theorem State.setDisp_keyEvent (s : State) (d : BitVec 2048) : (s.setDisp d).keyEvent = s.keyEvent := rfl
@[simp] theorem State.setDisp_cfg (s : State) (d : BitVec 2048) : (s.setDisp d).cfg = s.cfg := rfl
@[simp] theorem State.setDisp_draws (s : State) (d : BitVec 2048) : (s.setDisp d).draws = s.draws := rfl
@[simp] theorem State.setDisp_effects (s : State) (d : BitVec 2048) : (s.setDisp d).effects = s.effects := rfl
@[simp] theorem State.setDisp_getV (s : State) (d : BitVec 2048) (y : Nibble) : (s.setDisp d).getV y = s.getV y := rfl
@[simp] theorem State.setDisp_read (s : State) (d : BitVec 2048) (a' : Nat) : (s.setDisp d).read a' = s.read a' := rfl

/-! ### setKeyLevel -/

@[simp] theorem State.setKeyLevel_v (s : State) (k : Nibble) (d : Bool) : (s.setKeyLevel k d).v = s.v := rfl
@[simp] theorem State.setKeyLevel_i (s : State) (k : Nibble) (d : Bool) : (s.setKeyLevel k d).i = s.i := rfl
@[simp] theorem State.setKeyLevel_pc (s : State) (k : Nibble) (d : Bool) : (s.setKeyLevel k d).pc = s.pc := rfl
@[simp] theorem State.setKeyLevel_stack (s : State) (k : Nibble) (d : Bool) : (s.setKeyLevel k d).stack = s.stack := rfl
@[simp] theorem State.setKeyLevel_sp (s : State) (k : Nibble) (d : Bool) : (s.setKeyLevel k d).sp = s.sp := rfl
@[simp] theorem State.setKeyLevel_dt (s : State) (k : Nibble) (d : Bool) : (s.setKeyLevel k d).dt = s.dt := rfl
@[simp] theorem State.setKeyLevel_st (s : State) (k : Nibble) (d : Bool) : (s.setKeyLevel k d).st = s.st := rfl
@[simp] theorem State.setKeyLevel_disp (s : State) (k : Nibble) (d : Bool) : (s.setKeyLevel k d).disp = s.disp := rfl
@[simp] theorem State.setKeyLevel_mem (s : State) (k : Nibble) (d : Bool) : (s.setKeyLevel k d).mem = s.mem := rfl
@[simp] theorem State.setKeyLevel_keys (s : State) (k : Nibble) (d : Bool) : (s.setKeyLevel k d).keys = s.keys.set k.toNat d k.isLt := rfl
@[simp] theorem State.setKeyLevel_runState (s : State) (k : Nibble) (d : Bool) : (s.setKeyLevel k d).runState = s.runState := rfl
@[simp] theorem State.setKeyLevel_errKind (s : State) (k : Nibble) (d : Bool) : (s.setKeyLevel k d).errKind = s.errKind := rfl
@[simp] theorem State.setKeyLevel_errInfo (s : State) (k : Nibble) (d : Bool) : (s.setKeyLevel k d).errInfo = s.errInfo := rfl
@[simp] theorem State.setKeyLevel_waitReg (s : State) (k : Nibble) (d : Bool) : (s.setKeyLevel k d).waitReg = s.waitReg := rfl
@[simp] theorem State.setKeyLevel_keyEvent (s : State) (k : Nibble) (d : Bool) : (s.setKeyLevel k d).keyEvent = s.keyEvent := rfl
@[simp] theorem State.setKeyLevel_cfg (s : State) (k : Nibble) (d : Bool) : (s.setKeyLevel k d).cfg = s.cfg := rfl
@[simp] theorem State.setKeyLevel_draws (s : State) (k : Nibble) (d : Bool) : (s.setKeyLevel k d).draws = s.draws := rfl
@[simp] theorem State.setKeyLevel_effects (s : State) (k : Nibble) (d : Bool) : (s.setKeyLevel k d).effects = s.effects := rfl
@[simp] theorem State.setKeyLevel_getV (s : State) (k : Nibble) (d : Bool) (y : Nibble) : (s.setKeyLevel k d).getV y = s.getV y := rfl
@[simp] theorem State.setKeyLevel_read (s : State) (k : Nibble) (d : Bool) (a' : Nat) : (s.setKeyLevel k d).read a' = s.read a' := rfl
@[simp] theorem State.setKeyLevel_pixel (s : State) (k : Nibble) (d : Bool) (px py : Nat) : (s.setKeyLevel k d).pixel px py = s.pixel px py := rfl

/-! ### setRunState -/

@[simp] theorem State.setRunState_v (s : State) (r : RunState) : (s.setRunState r).v = s.v := rfl
@[simp] theorem State.setRunState_i (s : State) (r : RunState) : (s.setRunState r).i = s.i := rfl
@[simp] theorem State.setRunState_pc (s : State) (r : RunState) : (s.setRunState r).pc = s.pc := rfl
@[simp] theorem State.setRunState_stack (s : State) (r : RunState) : (s.setRunState r).stack = s.stack := rfl
@[simp] theorem State.setRunState_sp (s : State) (r : RunState) : (s.setRunState r).sp = s.sp := rfl
@[simp] theorem State.setRunState_dt (s : State) (r : RunState) : (s.setRunState r).dt = s.dt := rfl
@[simp] theorem State.setRunState_st (s : State) (r : RunState) : (s.setRunState r).st = s.st := rfl
@[simp] theorem State.setRunState_disp (s : State) (r : RunState) : (s.setRunState r).disp = s.disp := rfl
@[simp] theorem State.setRunState_mem (s : State) (r : RunState) : (s.setRunState r).mem = s.mem := rfl
@[simp] theorem State.setRunState_keys (s : State) (r : RunState) : (s.setRunState r).keys = s.keys := rfl
@[simp] theorem State.setRunState_runState (s : State) (r : RunState) : (s.setRunState r).runState = r := rfl
@[simp] theorem State.setRunState_errKind (s : State) (r : RunState) : (s.setRunState r).errKind = s.errKind := rfl
@[simp] theorem State.setRunState_errInfo (s : State) (r : RunState) : (s.setRunState r).errInfo = s.errInfo := rfl
@[simp] theorem State.setRunState_waitReg (s : State) (r : RunState) : (s.setRunState r).waitReg = s.waitReg := rfl
@[simp] theorem State.setRunState_keyEvent (s : State) (r : RunState) : (s.setRunState r).keyEvent = s.keyEvent := rfl
@[simp] theorem State.setRunState_cfg (s : State) (r : RunState) : (s.setRunState r).cfg = s.cfg := rfl
@[simp] theorem State.setRunState_draws (s : State) (r : RunState) : (s.setRunState r).draws = s.draws := rfl
@[simp] theorem State.setRunState_effects (s : State) (r : RunState) : (s.setRunState r).effects = s.effects := rfl
@[simp] theorem State.setRunState_getV (s : State) (r : RunState) (y : Nibble) : (s.setRunState r).getV y = s.getV y := rfl
@[simp] theorem State.setRunState_read (s : State) (r : RunState) (a' : Nat) : (s.setRunState r).read a' = s.read a' := rfl
@[simp] theorem State.setRunState_pixel (s : State) (r : RunState) (px py : Nat) : (s.setRunState r).pixel px py = s.pixel px py := rfl

/-! ### enterWait -/

@[simp] theorem State.enterWait_v (s : State) (x : Nibble) : (s.enterWait x).v = s.v := rfl
@[simp] theorem State.enterWait_i (s : State) (x : Nibble) : (s.enterWait x).i = s.i := rfl
@[simp] theorem State.enterWait_pc (s : State) (x : Nibble) : (s.enterWait x).pc = s.pc := rfl
@[simp] theorem State.enterWait_stack (s : State) (x : Nibble) : (s.enterWait x).stack = s.stack := rfl
@[simp] theorem State.enterWait_sp (s : State) (x : Nibble) : (s.enterWait x).sp = s.sp := rfl
@[simp] theorem State.enterWait_dt (s : State) (x : Nibble) : (s.enterWait x).dt = s.dt := rfl
@[simp] theorem State.enterWait_st (s : State) (x : Nibble) : (s.enterWait x).st = s.st := rfl
@[simp] theorem State.enterWait_disp (s : State) (x : Nibble) : (s.enterWait x).disp = s.disp := rfl
@[simp] theorem State.enterWait_mem (s : State) (x : Nibble) : (s.enterWait x).mem = s.mem := rfl
@[simp] theorem State.enterWait_keys (s : State) (x : Nibble) : (s.enterWait x).keys = s.keys := rfl
@[simp] theorem State.enterWait_runState (s : State) (x : Nibble) : (s.enterWait x).runState = .waitingForKey := rfl
@[simp] theorem State.enterWait_errKind (s : State) (x : Nibble) : (s.enterWait x).errKind = s.errKind := rfl
@[simp] theorem State.enterWait_errInfo (s : State) (x : Nibble) : (s.enterWait x).errInfo = s.errInfo := rfl
@[simp] theorem State.enterWait_waitReg (s : State) (x : Nibble) : (s.enterWait x).waitReg = x := rfl
@[simp] theorem State.enterWait_keyEvent (s : State) (x : Nibble) : (s.enterWait x).keyEvent = none := rfl
@[simp] theorem State.enterWait_cfg (s : State) (x : Nibble) : (s.enterWait x).cfg = s.cfg := rfl
@[simp] theorem State.enterWait_draws (s : State) (x : Nibble) : (s.enterWait x).draws = s.draws := rfl
@[simp] theorem State.enterWait_effects (s : State) (x : Nibble) : (s.enterWait x).effects = s.effects := rfl
@[simp] theorem State.enterWait_getV (s : State) (x : Nibble) (y : Nibble) : (s.enterWait x).getV y = s.getV y := rfl
@[simp] theorem State.enterWait_read (s : State) (x : Nibble) (a' : Nat) : (s.enterWait x).read a' = s.read a' := rfl
@[simp] theorem State.enterWait_pixel (s : State) (x : Nibble) (px py : Nat) : (s.enterWait x).pixel px py = s.pixel px py := rfl

/-! ### setKeyEvent -/

@[simp] theorem State.setKeyEvent_v (s : State) (e : Option Nibble) : (s.setKeyEvent e).v = s.v := rfl
@[simp] theorem State.setKeyEvent_i (s : State) (e : Option Nibble) : (s.setKeyEvent e).i = s.i := rfl
@[simp] theorem State.setKeyEvent_pc (s : State) (e : Option Nibble) : (s.setKeyEvent e).pc = s.pc := rfl
@[simp] theorem State.setKeyEvent_stack (s : State) (e : Option Nibble) : (s.setKeyEvent e).stack = s.stack := rfl
@[simp] theorem State.setKeyEvent_sp (s : State) (e : Option Nibble) : (s.setKeyEvent e).sp = s.sp := rfl
@[simp] theorem State.setKeyEvent_dt (s : State) (e : Option Nibble) : (s.setKeyEvent e).dt = s.dt := rfl
@[simp] theorem State.setKeyEvent_st (s : State) (e : Option Nibble) : (s.setKeyEvent e).st = s.st := rfl
@[simp] theorem State.setKeyEvent_disp (s : State) (e : Option Nibble) : (s.setKeyEvent e).disp = s.disp := rfl
@[simp] theorem State.setKeyEvent_mem (s : State) (e : Option Nibble) : (s.setKeyEvent e).mem = s.mem := rfl
@[simp] theorem State.setKeyEvent_keys (s : State) (e : Option Nibble) : (s.setKeyEvent e).keys = s.keys := rfl
@[simp] theorem State.setKeyEvent_runState (s : State) (e : Option Nibble) : (s.setKeyEvent e).runState = s.runState := rfl
@[simp] theorem State.setKeyEvent_errKind (s : State) (e : Option Nibble) : (s.setKeyEvent e).errKind = s.errKind := rfl
@[simp] theorem State.setKeyEvent_errInfo (s : State) (e : Option Nibble) : (s.setKeyEvent e).errInfo = s.errInfo := rfl
@[simp] theorem State.setKeyEvent_waitReg (s : State) (e : Option Nibble) : (s.setKeyEvent e).waitReg = s.waitReg := rfl
@[simp] theorem State.setKeyEvent_keyEvent (s : State) (e : Option Nibble) : (s.setKeyEvent e).keyEvent = e := rfl
@[simp] theorem State.setKeyEvent_cfg (s : State) (e : Option Nibble) : (s.setKeyEvent e).cfg = s.cfg := rfl
@[simp] theorem State.setKeyEvent_draws (s : State) (e : Option Nibble) : (s.setKeyEvent e).draws = s.draws := rfl
@[simp] theorem State.setKeyEvent_effects (s : State) (e : Option Nibble) : (s.setKeyEvent e).effects = s.effects := rfl
@[simp] theorem State.setKeyEvent_getV (s : State) (e : Option Nibble) (y : Nibble) : (s.setKeyEvent e).getV y = s.getV y := rfl
@[simp] theorem State.setKeyEvent_read (s : State) (e : Option Nibble) (a' : Nat) : (s.setKeyEvent e).read a' = s.read a' := rfl
@[simp] theorem State.setKeyEvent_pixel (s : State) (e : Option Nibble) (px py : Nat) : (s.setKeyEvent e).pixel px py = s.pixel px py := rfl

end Sys2Proof.Machine
end

