-- ==== Sys2Proof/Laws/Memory.lean ====
section
/-!
SUPPORT. The laws of main memory (20_memory.md R48, R51): a read after a write, and that every memory operation keeps the
canonical form.
-/

namespace Sys2Proof.Machine

/-- A byte below a canonical memory's first address reads as its reset contents. -/
theorem Memory.read_below {cfg : Config} {lo : Nat} {m : Memory} (h : Memory.wfFrom cfg lo m = true) {a : Nat} (ha : a < lo) :
    Memory.read cfg m a = Memory.initial cfg a := by
  induction m generalizing lo with
  | nil => rfl
  | cons e m ih =>
    obtain ⟨k, b⟩ := e
    simp only [Memory.wfFrom, Bool.and_eq_true, decide_eq_true_eq] at h
    simp only [Memory.read]
    rw [if_neg (by omega), ih h.2 (by omega)]

/-- A lower start keeps the canonical form. -/
theorem Memory.wfFrom_mono {cfg : Config} {lo lo' : Nat} {m : Memory} (h : Memory.wfFrom cfg lo m = true) (hl : lo' ≤ lo) :
    Memory.wfFrom cfg lo' m = true := by
  cases m with
  | nil => rfl
  | cons e m =>
    obtain ⟨k, b⟩ := e
    simp only [Memory.wfFrom, Bool.and_eq_true, decide_eq_true_eq] at h ⊢
    exact ⟨⟨⟨by omega, h.1.1.2⟩, h.1.2⟩, h.2⟩

/-- A write leaves every other byte (R51). -/
theorem Memory.read_write_other (cfg : Config) (m : Memory) {a c : Nat} (b : Byte) (h : c ≠ a) :
    Memory.read cfg (Memory.write cfg a b m) c = Memory.read cfg m c := by
  induction m with
  | nil => simp only [Memory.write]; split <;> simp [Memory.read, h]
  | cons e m ih =>
    obtain ⟨k, d⟩ := e
    simp only [Memory.write]
    split
    · split <;> simp [Memory.read, h]
    · split
      · rename_i hk
        split <;> simp [Memory.read, h, ← hk]
      · simp only [Memory.read]; rw [ih]

/-- A read of the byte just written gives the value written, in a canonical memory (R48). -/
theorem Memory.read_write_same {cfg : Config} {lo : Nat} {m : Memory} (hm : Memory.wfFrom cfg lo m = true) (a : Nat) (b : Byte) :
    Memory.read cfg (Memory.write cfg a b m) a = b := by
  induction m generalizing lo with
  | nil => simp only [Memory.write]; split <;> simp_all [Memory.read]
  | cons e m ih =>
    obtain ⟨k, d⟩ := e
    simp only [Memory.wfFrom, Bool.and_eq_true, decide_eq_true_eq] at hm
    simp only [Memory.write]
    split
    · split
      · rename_i h1 h2
        have := Memory.read_below hm.2 (a := a) (by omega)
        simp only [Memory.read]
        rw [if_neg (by omega), this, h2]
      · simp [Memory.read]
    · split
      · split
        · rename_i h1 h2 h3
          rw [Memory.read_below hm.2 (by omega), h3]
        · simp [Memory.read]
      · simp only [Memory.read]
        rw [if_neg (by assumption)]
        exact ih hm.2

/-- A write inside the address space keeps the canonical form. -/
theorem Memory.write_wfFrom {cfg : Config} {lo : Nat} {m : Memory} (hm : Memory.wfFrom cfg lo m = true) {a : Nat} (b : Byte)
    (hlo : lo ≤ a) (ha : a < memSize) : Memory.wfFrom cfg lo (Memory.write cfg a b m) = true := by
  induction m generalizing lo with
  | nil =>
    simp only [Memory.write]
    split
    · rfl
    · simp_all [Memory.wfFrom]
  | cons e m ih =>
    obtain ⟨k, d⟩ := e
    have hm' := hm
    simp only [Memory.wfFrom, Bool.and_eq_true, decide_eq_true_eq] at hm
    simp only [Memory.write]
    split
    · split
      · exact hm'
      · simp only [Memory.wfFrom, Bool.and_eq_true, decide_eq_true_eq]
        exact ⟨⟨⟨hlo, ha⟩, by assumption⟩, ⟨⟨by omega, hm.1.1.2⟩, hm.1.2⟩, hm.2⟩
    · split
      · split
        · exact Memory.wfFrom_mono hm.2 (by omega)
        · simp only [Memory.wfFrom, Bool.and_eq_true, decide_eq_true_eq]
          exact ⟨⟨⟨hlo, ha⟩, by assumption⟩, by rename_i h _; subst h; exact hm.2⟩
      · simp only [Memory.wfFrom, Bool.and_eq_true, decide_eq_true_eq]
        exact ⟨⟨⟨hm.1.1.1, hm.1.1.2⟩, hm.1.2⟩, ih hm.2 (by omega)⟩

/-- Reading memory changes nothing; writing a byte inside the address space keeps the canonical form. -/
theorem Memory.write_wf {cfg : Config} {m : Memory} (hm : Memory.wf cfg m = true) {a : Nat} (b : Byte) (ha : a < memSize) :
    Memory.wf cfg (Memory.write cfg a b m) = true := Memory.write_wfFrom hm b (Nat.zero_le a) ha

/-- Consecutive writes inside the address space keep the canonical form. -/
theorem Memory.writeRun_wf {cfg : Config} (bs : List Byte) {m : Memory} (hm : Memory.wf cfg m = true) {a : Nat}
    (ha : a + bs.length ≤ memSize) : Memory.wf cfg (Memory.writeRun cfg a bs m) = true := by
  induction bs generalizing a with
  | nil => exact hm
  | cons b bs ih =>
    simp only [List.length_cons] at ha
    exact Memory.write_wf (ih (by omega)) b (by omega)

/-- Consecutive writes put byte j at a + j and leave every other byte. -/
theorem Memory.read_writeRun {cfg : Config} (bs : List Byte) {m : Memory} (hm : Memory.wf cfg m = true) {a : Nat}
    (ha : a + bs.length ≤ memSize) (c : Nat) :
    Memory.read cfg (Memory.writeRun cfg a bs m) c =
      if h : a ≤ c ∧ c < a + bs.length then bs[c - a]'(by omega) else Memory.read cfg m c := by
  induction bs generalizing a with
  | nil => simp only [Memory.writeRun, List.length_nil]; rw [dif_neg (by omega)]
  | cons b bs ih =>
    simp only [List.length_cons] at ha
    simp only [Memory.writeRun]
    by_cases h1 : c = a
    · subst h1
      rw [Memory.read_write_same (Memory.writeRun_wf bs hm (by omega)), dif_pos (by simp)]
      simp
    · rw [Memory.read_write_other _ _ _ h1, ih (by omega)]
      by_cases h2 : a + 1 ≤ c ∧ c < a + 1 + bs.length
      · rw [dif_pos h2, dif_pos (by simp only [List.length_cons]; omega)]
        have e : c - a = (c - (a + 1)) + 1 := by omega
        simp only [e, List.getElem_cons_succ]
      · rw [dif_neg h2, dif_neg (by simp only [List.length_cons]; omega)]

/-- Reset memory is canonical. -/
theorem State.reset_mem_wf : Memory.wf State.reset.cfg State.reset.mem = true := rfl

/-- A state's read after its write. -/
theorem State.read_write (s : State) (hm : Memory.wf s.cfg s.mem = true) (a c : Nat) (b : Byte) :
    (s.write a b).read c = if c = a then b else s.read c := by
  by_cases h : c = a
  · subst h; simp only [if_true]; exact Memory.read_write_same hm c b
  · rw [if_neg h]; exact Memory.read_write_other _ _ _ h

/-- Bytes read the same in two states with the same memory and configuration. -/
theorem State.read_congr {s t : State} (hm : t.mem = s.mem) (hc : t.cfg = s.cfg) (a : Nat) : t.read a = s.read a := by
  simp [State.read, hm, hc]

end Sys2Proof.Machine
end

