-- ==== Sys2Proof/Laws/Registers.lean ====
section
/-!
SUPPORT. The laws of the V registers (10_state.md R10): a register read after a register written, and what a block load
leaves.
-/

namespace Sys2Proof.Machine

theorem State.getV_setV (s : State) (x y : Nibble) (b : Byte) : (s.setV x b).getV y = if y = x then b else s.getV y := by
  have hx : x.toNat < 16 := x.isLt
  have hy : y.toNat < 16 := y.isLt
  simp only [State.getV, State.setV, Vector.getElem_set]
  by_cases h : y = x
  · simp [h]
  · rw [if_neg h, if_neg (fun e => h (BitVec.eq_of_toNat_eq e.symm))]

@[simp] theorem State.getV_setV_same (s : State) (x : Nibble) (b : Byte) : (s.setV x b).getV x = b := by
  simp [State.getV_setV]

theorem State.getV_setV_other (s : State) {x y : Nibble} (b : Byte) (h : y ≠ x) : (s.setV x b).getV y = s.getV y := by
  simp [State.getV_setV, h]

@[simp] theorem State.getV_setFlag_vf (s : State) (f : Bool) : (s.setFlag f).getV 0xF#4 = if f then 0x01#8 else 0x00#8 := by
  simp [State.setFlag]

theorem State.getV_setFlag_other (s : State) {y : Nibble} (f : Bool) (h : y ≠ 0xF#4) : (s.setFlag f).getV y = s.getV y := by
  simp [State.setFlag, State.getV_setV, h]

/-- Registers read the same in two states with the same register file. -/
theorem State.getV_congr {s t : State} (h : t.v = s.v) (y : Nibble) : t.getV y = s.getV y := by
  simp [State.getV, h]

/-- The result-then-flag write (R118): VF holds the flag, the destination the result unless it is VF, and every other
register is unchanged. -/
theorem writeResultFlag_getV (s : State) (x y : Nibble) (r : Byte) (f : Bool) :
    (writeResultFlag s x r f).getV y =
      if y = 0xF#4 then (if f then 0x01#8 else 0x00#8) else if y = x then r else s.getV y := by
  unfold writeResultFlag
  by_cases h : y = 0xF#4
  · subst h; simp
  · rw [State.getV_setFlag_other _ _ h, State.getV_setV, if_neg h]

/-- The result-then-flag write changes nothing but V registers. -/
theorem writeResultFlag_frame (s : State) (x : Nibble) (r : Byte) (f : Bool) :
    writeResultFlag s x r f = { s with v := (writeResultFlag s x r f).v } := rfl

/-- A block load changes nothing but V registers. -/
theorem State.loadRegs_frame (s : State) (k : Nat) (bs : List Byte) :
    s.loadRegs k bs = { s with v := (s.loadRegs k bs).v } := by
  induction bs generalizing s k with
  | nil => rfl
  | cons b bs ih => simp only [State.loadRegs]; rw [ih]; rfl

/-- A block load from V[k] on loads byte j into V[k + j] and leaves the registers outside the block (R135). -/
theorem State.getV_loadRegs (s : State) (k : Nat) (bs : List Byte) (h : k + bs.length ≤ 16) (y : Nibble) :
    (s.loadRegs k bs).getV y =
      if hy : k ≤ y.toNat ∧ y.toNat < k + bs.length then bs[y.toNat - k]'(by omega) else s.getV y := by
  induction bs generalizing s k with
  | nil =>
    simp only [State.loadRegs, List.length_nil]
    rw [dif_neg (by omega)]
  | cons b bs ih =>
    simp only [List.length_cons] at h
    simp only [State.loadRegs]
    rw [ih (s.setV (BitVec.ofNat 4 k) b) (k + 1) (by omega), State.getV_setV]
    have hk : (BitVec.ofNat 4 k).toNat = k := by simp; omega
    by_cases h1 : y.toNat = k
    · have hyk : y = BitVec.ofNat 4 k := BitVec.eq_of_toNat_eq (by rw [h1, hk])
      rw [dif_neg (by omega), if_pos hyk, dif_pos (by simp only [List.length_cons]; omega)]
      simp [h1]
    · have hyk : y ≠ BitVec.ofNat 4 k := fun e => h1 (by rw [e, hk])
      rw [if_neg hyk]
      by_cases h2 : k + 1 ≤ y.toNat ∧ y.toNat < k + 1 + bs.length
      · rw [dif_pos h2, dif_pos (by simp only [List.length_cons]; omega)]
        have e : y.toNat - k = (y.toNat - (k + 1)) + 1 := by omega
        simp only [e, List.getElem_cons_succ]
      · rw [dif_neg h2, dif_neg (by simp only [List.length_cons]; omega)]

end Sys2Proof.Machine
end

