-- ==== Sys2Proof/Laws/Ops.lean ====
section
/-!
SUPPORT. One lemma per shared operation that says everything it can do, for a proof to cite instead of unfolding it.
-/

namespace Sys2Proof.Machine

/-! ## Skips -/

/-- A skip writes pc only: two more when taken, else as it was (R108). -/
theorem State.skipIf_eq (s : State) (c : Bool) : s.skipIf c = s.setPc (if c then s.pc + 2#16 else s.pc) := by
  cases c <;> rfl

/-! ## Effective addresses (R42, R46) -/

/-- EA answers an address below 4096, the given one modulo 4096, exactly when it is in range or wraps. -/
theorem ea_ok {cfg : Config} {a e : Nat} (h : ea cfg a = .ok e) :
    e = a % 4096 ∧ e < memSize ∧ (a ≤ 4095 ∨ cfg.addressWrap = true) := by
  unfold ea at h
  split at h
  · injection h with h; subst h
    exact ⟨by omega, by unfold memSize; omega, .inl (by assumption)⟩
  · split at h
    · injection h with h; subst h
      exact ⟨rfl, by unfold memSize; omega, .inr (by assumption)⟩
    · cases h

/-- EA raises only without address_wrap, with the address given, which exceeds 4095. -/
theorem ea_error {cfg : Config} {a bad : Nat} (h : ea cfg a = .error bad) :
    bad = a ∧ 4095 < a ∧ cfg.addressWrap = false := by
  unfold ea at h
  split at h
  · cases h
  · split at h
    · cases h
    · injection h with h; subst h
      exact ⟨rfl, by omega, by simp_all⟩

/-- EA of an address in range is the address, modulo 4096 under address_wrap. -/
theorem ea_of_valid {cfg : Config} {a : Nat} (h : a ≤ 4095 ∨ cfg.addressWrap = true) : ea cfg a = .ok (a % 4096) := by
  unfold ea
  split
  · rw [Nat.mod_eq_of_lt (by omega)]
  · rcases h with h | h
    · omega
    · rw [if_pos h]

/-- EA of an address out of range without address_wrap. -/
theorem ea_of_invalid {cfg : Config} {a : Nat} (h : 4095 < a) (hw : cfg.addressWrap = false) : ea cfg a = .error a := by
  unfold ea
  rw [if_neg (by omega), hw]
  rfl

/-- A range answers its n addresses, address k being EA of a + k. -/
theorem eaRange_ok {cfg : Config} {a n : Nat} {as : List Nat} (h : eaRange cfg a n = .ok as) :
    as = (List.range n).map (fun k => (a + k) % 4096) ∧ ∀ k, k < n → a + k ≤ 4095 ∨ cfg.addressWrap = true := by
  induction n generalizing a as with
  | zero => simp only [eaRange, Except.ok.injEq] at h; subst h; simp
  | succ n ih =>
    simp only [eaRange] at h
    split at h
    · cases h
    · rename_i e he
      split at h
      · cases h
      · rename_i es hes
        injection h with h
        subst h
        obtain ⟨h1, h2⟩ := ih hes
        obtain ⟨e1, -, e3⟩ := ea_ok he
        refine ⟨?_, ?_⟩
        · rw [List.range_succ_eq_map, List.map_cons, h1, e1, List.map_map]
          congr 1
          apply List.map_congr_left
          intro k _
          simp only [Function.comp]
          congr 1
          omega
        · intro k hk
          cases k with
          | zero => exact e3
          | succ k => have := h2 k (by omega); rwa [show a + (k + 1) = a + 1 + k by omega]

/-- A range raises the first of its addresses that is out of range, without address_wrap. -/
theorem eaRange_error {cfg : Config} {a n bad : Nat} (h : eaRange cfg a n = .error bad) :
    cfg.addressWrap = false ∧ bad = max a 4096 ∧ bad < a + n := by
  induction n generalizing a with
  | zero => cases h
  | succ n ih =>
    simp only [eaRange] at h
    split at h
    · rename_i b hb
      injection h with h; subst h
      obtain ⟨h1, h2, h3⟩ := ea_error hb
      exact ⟨h3, by omega, by omega⟩
    · rename_i e he
      split at h
      · rename_i b hb
        injection h with h; subst h
        obtain ⟨h1, h2, h3⟩ := ih hb
        obtain ⟨-, -, e3⟩ := ea_ok he
        rw [h1] at e3
        simp only [Bool.false_eq_true, or_false] at e3
        exact ⟨h1, by omega, by omega⟩
      · cases h

/-- A range answers when it is empty, ends in range, or wraps. -/
theorem eaRange_of_valid {cfg : Config} {a n : Nat} (h : n = 0 ∨ a + n ≤ 4096 ∨ cfg.addressWrap = true) :
    eaRange cfg a n = .ok ((List.range n).map (fun k => (a + k) % 4096)) := by
  cases hr : eaRange cfg a n with
  | ok as => rw [(eaRange_ok hr).1]
  | error bad =>
    obtain ⟨h1, h2, h3⟩ := eaRange_error hr
    rw [h1] at h
    simp only [Bool.false_eq_true, or_false] at h
    omega

/-- A range that is not empty and ends out of range raises without address_wrap. -/
theorem eaRange_of_invalid {cfg : Config} {a n : Nat} (hn : n ≠ 0) (h : 4096 < a + n) (hw : cfg.addressWrap = false) :
    eaRange cfg a n = .error (max a 4096) := by
  cases hr : eaRange cfg a n with
  | ok as =>
    have h3 := (eaRange_ok hr).2 (n - 1) (by omega)
    rw [hw] at h3
    simp only [Bool.false_eq_true, or_false] at h3
    omega
  | error bad => rw [(eaRange_error hr).2.1]

/-! ## Data accesses (R46, R54) -/

/-- A data access in range, or under address_wrap, has its effect at the addresses (I + k) mod 4096. -/
theorem accessFromI_of_valid (s : State) (n : Nat) (act : List Nat → State)
    (h : n = 0 ∨ s.i.toNat + n ≤ 4096 ∨ s.cfg.addressWrap = true) :
    accessFromI s n act = act ((List.range n).map (fun k => (s.i.toNat + k) % 4096)) := by
  unfold accessFromI
  rw [eaRange_of_valid h]

/-- A data access out of range raises the first address out of range, and does nothing else. -/
theorem accessFromI_of_invalid (s : State) (n : Nat) (act : List Nat → State) (hn : n ≠ 0) (h : 4096 < s.i.toNat + n)
    (hw : s.cfg.addressWrap = false) : accessFromI s n act = s.raise .outOfBoundsAddress (max s.i.toNat 4096) := by
  unfold accessFromI
  rw [eaRange_of_invalid hn h hw]

/-- Everything a data access can do. -/
theorem accessFromI_cases (s : State) (n : Nat) (act : List Nat → State) :
    (accessFromI s n act = act ((List.range n).map (fun k => (s.i.toNat + k) % 4096)) ∧
      (n = 0 ∨ s.i.toNat + n ≤ 4096 ∨ s.cfg.addressWrap = true)) ∨
    (accessFromI s n act = s.raise .outOfBoundsAddress (max s.i.toNat 4096) ∧
      n ≠ 0 ∧ 4096 < s.i.toNat + n ∧ s.cfg.addressWrap = false) := by
  by_cases h : n = 0 ∨ s.i.toNat + n ≤ 4096 ∨ s.cfg.addressWrap = true
  · exact .inl ⟨accessFromI_of_valid s n act h, h⟩
  · have h1 : n ≠ 0 ∧ 4096 < s.i.toNat + n ∧ s.cfg.addressWrap = false := by
      simp only [not_or, Bool.not_eq_true] at h
      exact ⟨h.1, by omega, h.2.2⟩
    exact .inr ⟨accessFromI_of_invalid s n act h1.1 h1.2.1 h1.2.2, h1⟩

/-- Block stores change nothing but memory. -/
theorem State.writeAll_frame (s : State) (as : List Nat) (bs : List Byte) :
    s.writeAll as bs = { s with mem := (s.writeAll as bs).mem } := by
  induction as generalizing s bs with
  | nil => rfl
  | cons a as ih =>
    cases bs with
    | nil => rfl
    | cons b bs => simp only [State.writeAll]; rw [ih]; rfl

/-- Block stores inside the address space keep the canonical form. -/
theorem State.writeAll_wf (s : State) (as : List Nat) (bs : List Byte) (hm : Memory.wf s.cfg s.mem = true)
    (ha : ∀ a ∈ as, a < memSize) : Memory.wf s.cfg (s.writeAll as bs).mem = true := by
  induction as generalizing s bs with
  | nil => exact hm
  | cons a as ih =>
    cases bs with
    | nil => exact hm
    | cons b bs =>
      exact ih (s.write a b) bs (Memory.write_wf hm b (ha a (by simp))) (fun c hc => ha c (by simp [hc]))

/-- Block stores leave every byte that is not among their addresses. -/
theorem State.read_writeAll_other (s : State) (as : List Nat) (bs : List Byte) {c : Nat} (hc : c ∉ as) :
    (s.writeAll as bs).read c = s.read c := by
  induction as generalizing s bs with
  | nil => rfl
  | cons a as ih =>
    simp only [List.mem_cons, not_or] at hc
    cases bs with
    | nil => rfl
    | cons b bs =>
      simp only [State.writeAll]
      rw [ih (s.write a b) bs hc.2]
      exact Memory.read_write_other _ _ _ hc.1

/-- Block stores at distinct addresses put byte k at address k, in a canonical memory. -/
theorem State.read_writeAll (s : State) (as : List Nat) (bs : List Byte) (hm : Memory.wf s.cfg s.mem = true)
    (ha : ∀ a ∈ as, a < memSize) (hd : as.Nodup) (hl : as.length = bs.length) (k : Nat) (hk : k < as.length) :
    (s.writeAll as bs).read as[k] = bs[k] := by
  induction as generalizing s bs k with
  | nil => simp at hk
  | cons a as ih =>
    cases bs with
    | nil => simp at hl
    | cons b bs =>
      simp only [List.nodup_cons] at hd
      simp only [List.length_cons, Nat.succ.injEq] at hl
      simp only [State.writeAll]
      cases k with
      | zero =>
        simp only [List.getElem_cons_zero]
        rw [State.read_writeAll_other _ _ _ hd.1]
        exact Memory.read_write_same hm a b
      | succ k =>
        simp only [List.getElem_cons_succ]
        exact ih (s.write a b) bs (Memory.write_wf hm b (ha a (by simp))) (fun c hc => ha c (by simp [hc])) hd.2 hl k
          (by simp only [List.length_cons] at hk; omega)

/-- At most 4096 consecutive addresses stay distinct modulo 4096 (R134, corner case). -/
theorem addrs_nodup (a : Nat) {n : Nat} (hn : n ≤ 4096) : ((List.range n).map (fun k => (a + k) % 4096)).Nodup := by
  apply List.Nodup.map_on _ List.nodup_range
  intro x hx y hy h
  simp only [List.mem_range] at hx hy
  omega

/-- Every address of a data access is inside the address space. -/
theorem addrs_lt (a n : Nat) : ∀ c ∈ (List.range n).map (fun k => (a + k) % 4096), c < memSize := by
  intro c hc
  simp only [List.mem_map, List.mem_range] at hc
  obtain ⟨k, -, rfl⟩ := hc
  exact Nat.mod_lt _ (by decide)

/-- I moves past the block or stays (R134, R135). -/
theorem bumpI_eq (s : State) (x : Nibble) :
    bumpI s x = s.setI (if s.cfg.loadStoreIncrementsI then BitVec.ofNat 16 (s.i.toNat + x.toNat + 1) else s.i) := by
  unfold bumpI
  split <;> rfl

/-! ## Return stack (R100, R102) -/

/-- A push on a stack that is not full. -/
theorem State.push_of_lt (s : State) (w : Word) (h : s.sp.val < 16) :
    s.push w = some { s with stack := s.stack.set s.sp.val w h, sp := ⟨s.sp.val + 1, by omega⟩ } := by
  unfold State.push
  rw [dif_pos h]

/-- A push on a full stack. -/
theorem State.push_full (s : State) (w : Word) (h : s.sp.val = 16) : s.push w = none := by
  unfold State.push
  rw [dif_neg (by omega)]

/-- A pop from an empty stack. -/
theorem State.pop_empty (s : State) (h : s.sp = 0) : s.pop = none := by
  unfold State.pop
  rw [h]

/-- A pop from a stack that is not empty: the top slot, which keeps its bits. -/
theorem State.pop_of_pos (s : State) (h : 0 < s.sp.val) :
    s.pop = some (s.stack[s.sp.val - 1]'(by omega), { s with sp := ⟨s.sp.val - 1, by omega⟩ }) := by
  obtain ⟨n, hn⟩ : ∃ n, s.sp.val = n + 1 := ⟨s.sp.val - 1, by omega⟩
  have hs : s.sp = ⟨n + 1, by omega⟩ := Fin.ext hn
  unfold State.pop
  split
  · rename_i h0; rw [h0] at h; simp at h
  · rename_i m hm h0
    have : m = n := by rw [h0] at hn; simpa using hn
    subst this
    simp [h0]

/-- CALL with room on the stack. -/
theorem execCallAddr_of_lt (nnn : Addr) (s : State) (h : s.sp.val < 16) :
    execCallAddr nnn s = .next { s with
      stack := s.stack.set s.sp.val s.pc h, sp := ⟨s.sp.val + 1, by omega⟩, pc := addrOperand nnn } := by
  unfold execCallAddr
  rw [State.push_of_lt s s.pc h]
  rfl

/-- CALL on a full stack. -/
theorem execCallAddr_full (nnn : Addr) (s : State) (h : s.sp.val = 16) :
    execCallAddr nnn s = .next (s.raise .stackOverflow s.pc.toNat) := by
  unfold execCallAddr
  rw [State.push_full s s.pc h]

/-- RET with an entry on the stack. -/
theorem execRet_of_pos (s : State) (h : 0 < s.sp.val) :
    execRet s = .next { s with sp := ⟨s.sp.val - 1, by omega⟩, pc := s.stack[s.sp.val - 1]'(by omega) } := by
  unfold execRet
  rw [State.pop_of_pos s h]
  rfl

/-- RET on an empty stack. -/
theorem execRet_empty (s : State) (h : s.sp.val = 0) : execRet s = .next (s.raise .stackUnderflow s.pc.toNat) := by
  unfold execRet
  rw [State.pop_empty s (Fin.ext h)]

/-! ## Fetch (R83) -/

/-- A fetch whose two addresses are in range, or wrap. -/
theorem fetchWord_of_valid (s : State) (h : s.pc.toNat + 1 ≤ 4095 ∨ s.cfg.addressWrap = true) :
    fetchWord s = .ok (joinBytes (s.read (s.pc.toNat % 4096)) (s.read ((s.pc.toNat + 1) % 4096))) := by
  unfold fetchWord fetchAddrs
  rw [ea_of_valid (a := s.pc.toNat) (h.imp (by omega) id), ea_of_valid h]

/-- A fetch out of range without address_wrap: the first of pc and pc + 1 that exceeds 4095. -/
theorem fetchWord_of_invalid (s : State) (h : 4095 ≤ s.pc.toNat) (hw : s.cfg.addressWrap = false) :
    fetchWord s = .error (max s.pc.toNat 4096) := by
  unfold fetchWord fetchAddrs
  by_cases h1 : s.pc.toNat = 4095
  · rw [ea_of_valid (a := s.pc.toNat) (.inl (by omega)), ea_of_invalid (a := s.pc.toNat + 1) (by omega) hw, h1]
    rfl
  · rw [ea_of_invalid (a := s.pc.toNat) (by omega) hw]
    simp only
    congr 1
    omega

end Sys2Proof.Machine
end

