-- ==== Sys2Proof/Laws/Blocks.lean ====
section
/-!
SUPPORT. One lemma per field for the updates made of several writes (a block store, a block load, the move of I past a block,
the result-then-flag write, a skip): the fields they leave, in the simp set, and the reads they leave.
-/

namespace Sys2Proof.Machine

/-! ### State.writeAll -/

@[simp] theorem State.writeAll_v (s : State) (as : List Nat) (bs : List Byte) : (s.writeAll as bs).v = s.v := by
  rw [State.writeAll_frame s as bs]
@[simp] theorem State.writeAll_i (s : State) (as : List Nat) (bs : List Byte) : (s.writeAll as bs).i = s.i := by
  rw [State.writeAll_frame s as bs]
@[simp] theorem State.writeAll_pc (s : State) (as : List Nat) (bs : List Byte) : (s.writeAll as bs).pc = s.pc := by
  rw [State.writeAll_frame s as bs]
@[simp] theorem State.writeAll_stack (s : State) (as : List Nat) (bs : List Byte) : (s.writeAll as bs).stack = s.stack := by
  rw [State.writeAll_frame s as bs]
@[simp] theorem State.writeAll_sp (s : State) (as : List Nat) (bs : List Byte) : (s.writeAll as bs).sp = s.sp := by
  rw [State.writeAll_frame s as bs]
@[simp] theorem State.writeAll_dt (s : State) (as : List Nat) (bs : List Byte) : (s.writeAll as bs).dt = s.dt := by
  rw [State.writeAll_frame s as bs]
@[simp] theorem State.writeAll_st (s : State) (as : List Nat) (bs : List Byte) : (s.writeAll as bs).st = s.st := by
  rw [State.writeAll_frame s as bs]
@[simp] theorem State.writeAll_disp (s : State) (as : List Nat) (bs : List Byte) : (s.writeAll as bs).disp = s.disp := by
  rw [State.writeAll_frame s as bs]
@[simp] theorem State.writeAll_keys (s : State) (as : List Nat) (bs : List Byte) : (s.writeAll as bs).keys = s.keys := by
  rw [State.writeAll_frame s as bs]
@[simp] theorem State.writeAll_runState (s : State) (as : List Nat) (bs : List Byte) : (s.writeAll as bs).runState = s.runState := by
  rw [State.writeAll_frame s as bs]
@[simp] theorem State.writeAll_errKind (s : State) (as : List Nat) (bs : List Byte) : (s.writeAll as bs).errKind = s.errKind := by
  rw [State.writeAll_frame s as bs]
@[simp] theorem State.writeAll_errInfo (s : State) (as : List Nat) (bs : List Byte) : (s.writeAll as bs).errInfo = s.errInfo := by
  rw [State.writeAll_frame s as bs]
@[simp] theorem State.writeAll_waitReg (s : State) (as : List Nat) (bs : List Byte) : (s.writeAll as bs).waitReg = s.waitReg := by
  rw [State.writeAll_frame s as bs]
@[simp] theorem State.writeAll_keyEvent (s : State) (as : List Nat) (bs : List Byte) : (s.writeAll as bs).keyEvent = s.keyEvent := by
  rw [State.writeAll_frame s as bs]
@[simp] theorem State.writeAll_cfg (s : State) (as : List Nat) (bs : List Byte) : (s.writeAll as bs).cfg = s.cfg := by
  rw [State.writeAll_frame s as bs]
@[simp] theorem State.writeAll_draws (s : State) (as : List Nat) (bs : List Byte) : (s.writeAll as bs).draws = s.draws := by
  rw [State.writeAll_frame s as bs]
@[simp] theorem State.writeAll_effects (s : State) (as : List Nat) (bs : List Byte) : (s.writeAll as bs).effects = s.effects := by
  rw [State.writeAll_frame s as bs]
@[simp] theorem State.writeAll_getV (s : State) (as : List Nat) (bs : List Byte) (r : Nibble) : (s.writeAll as bs).getV r = s.getV r :=
  State.getV_congr (State.writeAll_v s as bs) r

/-! ### State.loadRegs -/

@[simp] theorem State.loadRegs_i (s : State) (k : Nat) (bs : List Byte) : (s.loadRegs k bs).i = s.i := by
  rw [State.loadRegs_frame s k bs]
@[simp] theorem State.loadRegs_pc (s : State) (k : Nat) (bs : List Byte) : (s.loadRegs k bs).pc = s.pc := by
  rw [State.loadRegs_frame s k bs]
@[simp] theorem State.loadRegs_stack (s : State) (k : Nat) (bs : List Byte) : (s.loadRegs k bs).stack = s.stack := by
  rw [State.loadRegs_frame s k bs]
@[simp] theorem State.loadRegs_sp (s : State) (k : Nat) (bs : List Byte) : (s.loadRegs k bs).sp = s.sp := by
  rw [State.loadRegs_frame s k bs]
@[simp] theorem State.loadRegs_dt (s : State) (k : Nat) (bs : List Byte) : (s.loadRegs k bs).dt = s.dt := by
  rw [State.loadRegs_frame s k bs]
@[simp] theorem State.loadRegs_st (s : State) (k : Nat) (bs : List Byte) : (s.loadRegs k bs).st = s.st := by
  rw [State.loadRegs_frame s k bs]
@[simp] theorem State.loadRegs_disp (s : State) (k : Nat) (bs : List Byte) : (s.loadRegs k bs).disp = s.disp := by
  rw [State.loadRegs_frame s k bs]
@[simp] theorem State.loadRegs_mem (s : State) (k : Nat) (bs : List Byte) : (s.loadRegs k bs).mem = s.mem := by
  rw [State.loadRegs_frame s k bs]
@[simp] theorem State.loadRegs_keys (s : State) (k : Nat) (bs : List Byte) : (s.loadRegs k bs).keys = s.keys := by
  rw [State.loadRegs_frame s k bs]
@[simp] theorem State.loadRegs_runState (s : State) (k : Nat) (bs : List Byte) : (s.loadRegs k bs).runState = s.runState := by
  rw [State.loadRegs_frame s k bs]
@[simp] theorem State.loadRegs_errKind (s : State) (k : Nat) (bs : List Byte) : (s.loadRegs k bs).errKind = s.errKind := by
  rw [State.loadRegs_frame s k bs]
@[simp] theorem State.loadRegs_errInfo (s : State) (k : Nat) (bs : List Byte) : (s.loadRegs k bs).errInfo = s.errInfo := by
  rw [State.loadRegs_frame s k bs]
@[simp] theorem State.loadRegs_waitReg (s : State) (k : Nat) (bs : List Byte) : (s.loadRegs k bs).waitReg = s.waitReg := by
  rw [State.loadRegs_frame s k bs]
@[simp] theorem State.loadRegs_keyEvent (s : State) (k : Nat) (bs : List Byte) : (s.loadRegs k bs).keyEvent = s.keyEvent := by
  rw [State.loadRegs_frame s k bs]
@[simp] theorem State.loadRegs_cfg (s : State) (k : Nat) (bs : List Byte) : (s.loadRegs k bs).cfg = s.cfg := by
  rw [State.loadRegs_frame s k bs]
@[simp] theorem State.loadRegs_draws (s : State) (k : Nat) (bs : List Byte) : (s.loadRegs k bs).draws = s.draws := by
  rw [State.loadRegs_frame s k bs]
@[simp] theorem State.loadRegs_effects (s : State) (k : Nat) (bs : List Byte) : (s.loadRegs k bs).effects = s.effects := by
  rw [State.loadRegs_frame s k bs]
@[simp] theorem State.loadRegs_read (s : State) (k : Nat) (bs : List Byte) (a : Nat) : (s.loadRegs k bs).read a = s.read a :=
  State.read_congr (State.loadRegs_mem s k bs) (State.loadRegs_cfg s k bs) a

/-! ### bumpI -/

@[simp] theorem bumpI_v (s : State) (x : Nibble) : (bumpI s x).v = s.v := by
  rw [bumpI_eq s x]; rfl
@[simp] theorem bumpI_pc (s : State) (x : Nibble) : (bumpI s x).pc = s.pc := by
  rw [bumpI_eq s x]; rfl
@[simp] theorem bumpI_stack (s : State) (x : Nibble) : (bumpI s x).stack = s.stack := by
  rw [bumpI_eq s x]; rfl
@[simp] theorem bumpI_sp (s : State) (x : Nibble) : (bumpI s x).sp = s.sp := by
  rw [bumpI_eq s x]; rfl
@[simp] theorem bumpI_dt (s : State) (x : Nibble) : (bumpI s x).dt = s.dt := by
  rw [bumpI_eq s x]; rfl
@[simp] theorem bumpI_st (s : State) (x : Nibble) : (bumpI s x).st = s.st := by
  rw [bumpI_eq s x]; rfl
@[simp] theorem bumpI_disp (s : State) (x : Nibble) : (bumpI s x).disp = s.disp := by
  rw [bumpI_eq s x]; rfl
@[simp] theorem bumpI_mem (s : State) (x : Nibble) : (bumpI s x).mem = s.mem := by
  rw [bumpI_eq s x]; rfl
@[simp] theorem bumpI_keys (s : State) (x : Nibble) : (bumpI s x).keys = s.keys := by
  rw [bumpI_eq s x]; rfl
@[simp] theorem bumpI_runState (s : State) (x : Nibble) : (bumpI s x).runState = s.runState := by
  rw [bumpI_eq s x]; rfl
@[simp] theorem bumpI_errKind (s : State) (x : Nibble) : (bumpI s x).errKind = s.errKind := by
  rw [bumpI_eq s x]; rfl
@[simp] theorem bumpI_errInfo (s : State) (x : Nibble) : (bumpI s x).errInfo = s.errInfo := by
  rw [bumpI_eq s x]; rfl
@[simp] theorem bumpI_waitReg (s : State) (x : Nibble) : (bumpI s x).waitReg = s.waitReg := by
  rw [bumpI_eq s x]; rfl
@[simp] theorem bumpI_keyEvent (s : State) (x : Nibble) : (bumpI s x).keyEvent = s.keyEvent := by
  rw [bumpI_eq s x]; rfl
@[simp] theorem bumpI_cfg (s : State) (x : Nibble) : (bumpI s x).cfg = s.cfg := by
  rw [bumpI_eq s x]; rfl
@[simp] theorem bumpI_draws (s : State) (x : Nibble) : (bumpI s x).draws = s.draws := by
  rw [bumpI_eq s x]; rfl
@[simp] theorem bumpI_effects (s : State) (x : Nibble) : (bumpI s x).effects = s.effects := by
  rw [bumpI_eq s x]; rfl
@[simp] theorem bumpI_getV (s : State) (x : Nibble) (r : Nibble) : (bumpI s x).getV r = s.getV r :=
  State.getV_congr (bumpI_v s x) r
@[simp] theorem bumpI_read (s : State) (x : Nibble) (a : Nat) : (bumpI s x).read a = s.read a :=
  State.read_congr (bumpI_mem s x) (bumpI_cfg s x) a

/-! ### writeResultFlag -/

@[simp] theorem writeResultFlag_i (s : State) (x : Nibble) (r : Byte) (f : Bool) : (writeResultFlag s x r f).i = s.i := rfl
@[simp] theorem writeResultFlag_pc (s : State) (x : Nibble) (r : Byte) (f : Bool) : (writeResultFlag s x r f).pc = s.pc := rfl
@[simp] theorem writeResultFlag_stack (s : State) (x : Nibble) (r : Byte) (f : Bool) : (writeResultFlag s x r f).stack = s.stack := rfl
@[simp] theorem writeResultFlag_sp (s : State) (x : Nibble) (r : Byte) (f : Bool) : (writeResultFlag s x r f).sp = s.sp := rfl
@[simp] theorem writeResultFlag_dt (s : State) (x : Nibble) (r : Byte) (f : Bool) : (writeResultFlag s x r f).dt = s.dt := rfl
@[simp] theorem writeResultFlag_st (s : State) (x : Nibble) (r : Byte) (f : Bool) : (writeResultFlag s x r f).st = s.st := rfl
@[simp] theorem writeResultFlag_disp (s : State) (x : Nibble) (r : Byte) (f : Bool) : (writeResultFlag s x r f).disp = s.disp := rfl
@[simp] theorem writeResultFlag_mem (s : State) (x : Nibble) (r : Byte) (f : Bool) : (writeResultFlag s x r f).mem = s.mem := rfl
@[simp] theorem writeResultFlag_keys (s : State) (x : Nibble) (r : Byte) (f : Bool) : (writeResultFlag s x r f).keys = s.keys := rfl
@[simp] theorem writeResultFlag_runState (s : State) (x : Nibble) (r : Byte) (f : Bool) : (writeResultFlag s x r f).runState = s.runState := rfl
@[simp] theorem writeResultFlag_errKind (s : State) (x : Nibble) (r : Byte) (f : Bool) : (writeResultFlag s x r f).errKind = s.errKind := rfl
@[simp] theorem writeResultFlag_errInfo (s : State) (x : Nibble) (r : Byte) (f : Bool) : (writeResultFlag s x r f).errInfo = s.errInfo := rfl
@[simp] theorem writeResultFlag_waitReg (s : State) (x : Nibble) (r : Byte) (f : Bool) : (writeResultFlag s x r f).waitReg = s.waitReg := rfl
@[simp] theorem writeResultFlag_keyEvent (s : State) (x : Nibble) (r : Byte) (f : Bool) : (writeResultFlag s x r f).keyEvent = s.keyEvent := rfl
@[simp] theorem writeResultFlag_cfg (s : State) (x : Nibble) (r : Byte) (f : Bool) : (writeResultFlag s x r f).cfg = s.cfg := rfl
@[simp] theorem writeResultFlag_draws (s : State) (x : Nibble) (r : Byte) (f : Bool) : (writeResultFlag s x r f).draws = s.draws := rfl
@[simp] theorem writeResultFlag_effects (s : State) (x : Nibble) (r : Byte) (f : Bool) : (writeResultFlag s x r f).effects = s.effects := rfl
@[simp] theorem writeResultFlag_read (s : State) (x : Nibble) (r : Byte) (f : Bool) (a : Nat) : (writeResultFlag s x r f).read a = s.read a :=
  State.read_congr (writeResultFlag_mem s x r f) (writeResultFlag_cfg s x r f) a

/-! ### State.skipIf -/

@[simp] theorem State.skipIf_v (s : State) (c : Bool) : (s.skipIf c).v = s.v := by
  rw [State.skipIf_eq s c]; rfl
@[simp] theorem State.skipIf_i (s : State) (c : Bool) : (s.skipIf c).i = s.i := by
  rw [State.skipIf_eq s c]; rfl
@[simp] theorem State.skipIf_stack (s : State) (c : Bool) : (s.skipIf c).stack = s.stack := by
  rw [State.skipIf_eq s c]; rfl
@[simp] theorem State.skipIf_sp (s : State) (c : Bool) : (s.skipIf c).sp = s.sp := by
  rw [State.skipIf_eq s c]; rfl
@[simp] theorem State.skipIf_dt (s : State) (c : Bool) : (s.skipIf c).dt = s.dt := by
  rw [State.skipIf_eq s c]; rfl
@[simp] theorem State.skipIf_st (s : State) (c : Bool) : (s.skipIf c).st = s.st := by
  rw [State.skipIf_eq s c]; rfl
@[simp] theorem State.skipIf_disp (s : State) (c : Bool) : (s.skipIf c).disp = s.disp := by
  rw [State.skipIf_eq s c]; rfl
@[simp] theorem State.skipIf_mem (s : State) (c : Bool) : (s.skipIf c).mem = s.mem := by
  rw [State.skipIf_eq s c]; rfl
@[simp] theorem State.skipIf_keys (s : State) (c : Bool) : (s.skipIf c).keys = s.keys := by
  rw [State.skipIf_eq s c]; rfl
@[simp] theorem State.skipIf_runState (s : State) (c : Bool) : (s.skipIf c).runState = s.runState := by
  rw [State.skipIf_eq s c]; rfl
@[simp] theorem State.skipIf_errKind (s : State) (c : Bool) : (s.skipIf c).errKind = s.errKind := by
  rw [State.skipIf_eq s c]; rfl
@[simp] theorem State.skipIf_errInfo (s : State) (c : Bool) : (s.skipIf c).errInfo = s.errInfo := by
  rw [State.skipIf_eq s c]; rfl
@[simp] theorem State.skipIf_waitReg (s : State) (c : Bool) : (s.skipIf c).waitReg = s.waitReg := by
  rw [State.skipIf_eq s c]; rfl
@[simp] theorem State.skipIf_keyEvent (s : State) (c : Bool) : (s.skipIf c).keyEvent = s.keyEvent := by
  rw [State.skipIf_eq s c]; rfl
@[simp] theorem State.skipIf_cfg (s : State) (c : Bool) : (s.skipIf c).cfg = s.cfg := by
  rw [State.skipIf_eq s c]; rfl
@[simp] theorem State.skipIf_draws (s : State) (c : Bool) : (s.skipIf c).draws = s.draws := by
  rw [State.skipIf_eq s c]; rfl
@[simp] theorem State.skipIf_effects (s : State) (c : Bool) : (s.skipIf c).effects = s.effects := by
  rw [State.skipIf_eq s c]; rfl
@[simp] theorem State.skipIf_getV (s : State) (c : Bool) (r : Nibble) : (s.skipIf c).getV r = s.getV r :=
  State.getV_congr (State.skipIf_v s c) r
@[simp] theorem State.skipIf_read (s : State) (c : Bool) (a : Nat) : (s.skipIf c).read a = s.read a :=
  State.read_congr (State.skipIf_mem s c) (State.skipIf_cfg s c) a

end Sys2Proof.Machine
end

