-- ==== Sys2Proof/Laws/Decode.lean ====
section
/-!
SUPPORT. The fields of an encoded word, format by format (30_encoding.md R61, R62), and a word from its fields.
-/

namespace Sys2Proof

theorem packXYN_toNat (op x y n : Nibble) :
    (packXYN op x y n).toNat = op.toNat * 4096 + x.toNat * 256 + y.toNat * 16 + n.toNat := by
  have := op.isLt; have := x.isLt; have := y.isLt; have := n.isLt
  unfold packXYN
  simp only [BitVec.toNat_append, Nat.shiftLeft_eq]
  rw [← Nat.shiftLeft_eq y.toNat, ← Nat.shiftLeft_add_eq_or_of_lt (by omega), Nat.shiftLeft_eq,
    ← Nat.shiftLeft_eq x.toNat, ← Nat.shiftLeft_add_eq_or_of_lt (by omega), Nat.shiftLeft_eq,
    ← Nat.shiftLeft_eq op.toNat, ← Nat.shiftLeft_add_eq_or_of_lt (by omega), Nat.shiftLeft_eq]
  omega

theorem packXNN_toNat (op x : Nibble) (nn : Byte) :
    (packXNN op x nn).toNat = op.toNat * 4096 + x.toNat * 256 + nn.toNat := by
  have := op.isLt; have := x.isLt; have := nn.isLt
  unfold packXNN
  simp only [BitVec.toNat_append, Nat.shiftLeft_eq]
  rw [← Nat.shiftLeft_eq x.toNat, ← Nat.shiftLeft_add_eq_or_of_lt (by omega), Nat.shiftLeft_eq,
    ← Nat.shiftLeft_eq op.toNat, ← Nat.shiftLeft_add_eq_or_of_lt (by omega), Nat.shiftLeft_eq]
  omega

theorem packNNN_toNat (op : Nibble) (nnn : Addr) : (packNNN op nnn).toNat = op.toNat * 4096 + nnn.toNat := by
  have := op.isLt; have := nnn.isLt
  unfold packNNN
  simp only [BitVec.toNat_append, Nat.shiftLeft_eq]
  rw [← Nat.shiftLeft_eq op.toNat, ← Nat.shiftLeft_add_eq_or_of_lt (by omega), Nat.shiftLeft_eq]

theorem opField_toNat (w : Word) : (opField w).toNat = w.toNat / 4096 := by
  have := w.isLt
  simp [opField, BitVec.extractLsb'_toNat, Nat.shiftRight_eq_div_pow]; omega
theorem xField_toNat (w : Word) : (xField w).toNat = w.toNat / 256 % 16 := by
  simp [xField, BitVec.extractLsb'_toNat, Nat.shiftRight_eq_div_pow]
theorem yField_toNat (w : Word) : (yField w).toNat = w.toNat / 16 % 16 := by
  simp [yField, BitVec.extractLsb'_toNat, Nat.shiftRight_eq_div_pow]
theorem nField_toNat (w : Word) : (nField w).toNat = w.toNat % 16 := by
  simp [nField, BitVec.extractLsb'_toNat]
theorem nnField_toNat (w : Word) : (nnField w).toNat = w.toNat % 256 := by
  simp [nnField, BitVec.extractLsb'_toNat]
theorem nnnField_toNat (w : Word) : (nnnField w).toNat = w.toNat % 4096 := by
  simp [nnnField, BitVec.extractLsb'_toNat]

/-! ## The fields of each format -/

@[simp] theorem opField_packNNN (op : Nibble) (nnn : Addr) : opField (packNNN op nnn) = op :=
  BitVec.eq_of_toNat_eq (by have := nnn.isLt; rw [opField_toNat, packNNN_toNat]; omega)
@[simp] theorem nnnField_packNNN (op : Nibble) (nnn : Addr) : nnnField (packNNN op nnn) = nnn :=
  BitVec.eq_of_toNat_eq (by have := nnn.isLt; rw [nnnField_toNat, packNNN_toNat]; omega)

@[simp] theorem opField_packXNN (op x : Nibble) (nn : Byte) : opField (packXNN op x nn) = op :=
  BitVec.eq_of_toNat_eq (by have := x.isLt; have := nn.isLt; rw [opField_toNat, packXNN_toNat]; omega)
@[simp] theorem xField_packXNN (op x : Nibble) (nn : Byte) : xField (packXNN op x nn) = x :=
  BitVec.eq_of_toNat_eq (by have := x.isLt; have := nn.isLt; rw [xField_toNat, packXNN_toNat]; omega)
@[simp] theorem nnField_packXNN (op x : Nibble) (nn : Byte) : nnField (packXNN op x nn) = nn :=
  BitVec.eq_of_toNat_eq (by have := x.isLt; have := nn.isLt; rw [nnField_toNat, packXNN_toNat]; omega)

@[simp] theorem opField_packXYN (op x y n : Nibble) : opField (packXYN op x y n) = op :=
  BitVec.eq_of_toNat_eq (by
    have := x.isLt; have := y.isLt; have := n.isLt; rw [opField_toNat, packXYN_toNat]; omega)
@[simp] theorem xField_packXYN (op x y n : Nibble) : xField (packXYN op x y n) = x :=
  BitVec.eq_of_toNat_eq (by
    have := x.isLt; have := y.isLt; have := n.isLt; rw [xField_toNat, packXYN_toNat]; omega)
@[simp] theorem yField_packXYN (op x y n : Nibble) : yField (packXYN op x y n) = y :=
  BitVec.eq_of_toNat_eq (by
    have := x.isLt; have := y.isLt; have := n.isLt; rw [yField_toNat, packXYN_toNat]; omega)
@[simp] theorem nField_packXYN (op x y n : Nibble) : nField (packXYN op x y n) = n :=
  BitVec.eq_of_toNat_eq (by
    have := x.isLt; have := y.isLt; have := n.isLt; rw [nField_toNat, packXYN_toNat]; omega)

/-! ## A word from its fields -/

theorem packNNN_fields (w : Word) : packNNN (opField w) (nnnField w) = w :=
  BitVec.eq_of_toNat_eq (by have := w.isLt; rw [packNNN_toNat, opField_toNat, nnnField_toNat]; omega)
theorem packXNN_fields (w : Word) : packXNN (opField w) (xField w) (nnField w) = w :=
  BitVec.eq_of_toNat_eq (by have := w.isLt; rw [packXNN_toNat, opField_toNat, xField_toNat, nnField_toNat]; omega)
theorem packXYN_fields (w : Word) : packXYN (opField w) (xField w) (yField w) (nField w) = w :=
  BitVec.eq_of_toNat_eq (by
    have := w.isLt; rw [packXYN_toNat, opField_toNat, xField_toNat, yField_toNat, nField_toNat]; omega)

/-- The two bytes of a word join to it (R43). -/
@[simp] theorem joinBytes_bytes (w : Word) : joinBytes (hiByte w) (loByte w) = w := by
  have := w.isLt
  apply BitVec.eq_of_toNat_eq
  unfold joinBytes hiByte loByte
  simp only [BitVec.toNat_append, BitVec.extractLsb'_toNat, Nat.shiftRight_eq_div_pow, Nat.pow_zero, Nat.div_one]
  rw [← Nat.shiftLeft_add_eq_or_of_lt (by omega), Nat.shiftLeft_eq]
  omega

/-- A word of two bytes is 256 times the first plus the second: big-endian (R43). -/
theorem joinBytes_toNat (hi lo : Byte) : (joinBytes hi lo).toNat = 256 * hi.toNat + lo.toNat := by
  have := lo.isLt
  unfold joinBytes
  simp only [BitVec.toNat_append]
  rw [← Nat.shiftLeft_add_eq_or_of_lt (by omega), Nat.shiftLeft_eq]
  omega

/-! ## Bits of each format, and the masks of the opcode map as field tests (R65) -/

theorem packNNN_bit (op : Nibble) (nnn : Addr) (k : Nat) :
    (packNNN op nnn).getLsbD k = if k < 12 then nnn.getLsbD k else op.getLsbD (k - 12) :=
  BitVec.getLsbD_append

theorem packXNN_bit (op x : Nibble) (nn : Byte) (k : Nat) :
    (packXNN op x nn).getLsbD k =
      if k < 8 then nn.getLsbD k else if k < 12 then x.getLsbD (k - 8) else op.getLsbD (k - 12) := by
  have h : (packXNN op x nn).getLsbD k = if k < 12 then (x ++ nn).getLsbD k else op.getLsbD (k - 12) :=
    BitVec.getLsbD_append
  rw [h, BitVec.getLsbD_append]
  by_cases h8 : k < 8
  · rw [if_pos (by omega), if_pos h8, if_pos h8]
  · rw [if_neg h8, if_neg h8]

theorem packXYN_bit (op x y n : Nibble) (k : Nat) :
    (packXYN op x y n).getLsbD k =
      if k < 4 then n.getLsbD k else if k < 8 then y.getLsbD (k - 4)
      else if k < 12 then x.getLsbD (k - 8) else op.getLsbD (k - 12) := by
  have h : (packXYN op x y n).getLsbD k = if k < 12 then (x ++ (y ++ n)).getLsbD k else op.getLsbD (k - 12) :=
    BitVec.getLsbD_append
  have h2 : (x ++ (y ++ n)).getLsbD k = if k < 8 then (y ++ n).getLsbD k else x.getLsbD (k - 8) :=
    BitVec.getLsbD_append
  rw [h, h2, BitVec.getLsbD_append]
  by_cases h4 : k < 4
  · rw [if_pos (by omega), if_pos (by omega), if_pos h4, if_pos h4]
  · by_cases h8 : k < 8
    · rw [if_pos (by omega), if_pos h8, if_neg h4, if_neg h4, if_pos h8]
    · rw [if_neg h8, if_neg h4, if_neg h8]

theorem and_mask_op (w : Word) : w &&& 0xF000#16 = packNNN (opField w) 0#12 := by
  apply BitVec.eq_of_getLsbD_eq
  intro k hk
  rw [packNNN_bit, BitVec.getLsbD_and]
  interval_cases k <;> simp [opField]

theorem and_mask_op_n (w : Word) : w &&& 0xF00F#16 = packXYN (opField w) 0#4 0#4 (nField w) := by
  apply BitVec.eq_of_getLsbD_eq
  intro k hk
  rw [packXYN_bit, BitVec.getLsbD_and]
  interval_cases k <;> simp [opField, nField]

theorem and_mask_op_nn (w : Word) : w &&& 0xF0FF#16 = packXNN (opField w) 0#4 (nnField w) := by
  apply BitVec.eq_of_getLsbD_eq
  intro k hk
  rw [packXNN_bit, BitVec.getLsbD_and]
  interval_cases k <;> simp [opField, nnField]

theorem and_mask_all (w : Word) : w &&& 0xFFFF#16 = w := by
  have : (0xFFFF#16 : Word) = BitVec.allOnes 16 := rfl
  rw [this, BitVec.and_allOnes]

end Sys2Proof
end

