-- ==== Sys2Proof/Laws/Draw.lean ====
section
/-!
SUPPORT. What a draw does (44_display.md R141): its target pixels are pairwise distinct (corner case (c)), so each pixel of
the display is inverted exactly when it is a target, and the collision flag says whether a target was on before.
-/

namespace Sys2Proof.Machine

/-- A pixel of a display with one pixel inverted. -/
theorem pixelOf_flipPixel (d : BitVec 2048) {x y x' y' : Nat} (hx : x < 64) (hy : y < 32) (hx' : x' < 64) :
    pixelOf (flipPixel d x y) x' y' = (pixelOf d x' y' ^^ decide (x' = x ∧ y' = y)) := by
  unfold pixelOf flipPixel pixelIndex
  rw [BitVec.getLsbD_xor, BitVec.getLsbD_twoPow]
  congr 1
  by_cases h : x' = x ∧ y' = y
  · obtain ⟨rfl, rfl⟩ := h
    simp; omega
  · rw [decide_eq_false h]
    have : ¬ (y * 64 + x = y' * 64 + x') := by omega
    simp [this]

/-- The targets of a draw from row r on: the pixels under the 1 bits of the sprite. -/
def rowTargets (x0 y : Nat) (b : Byte) : List (Nat × Nat) :=
  ((List.range 8).filter (fun c => b.getLsbD (7 - c))).map (fun c => ((x0 + c) % 64, y))

/-- The targets of the rows of a sprite from row r on. -/
def drawTargets (x0 y0 : Nat) : Nat → List Byte → List (Nat × Nat)
  | _, [] => []
  | r, b :: bs => rowTargets x0 ((y0 + r) % 32) b ++ drawTargets x0 y0 (r + 1) bs

/-- Inverting a list of pixels one by one, remembering whether one was on. -/
def flipAll (ps : List (Nat × Nat)) (acc : BitVec 2048 × Bool) : BitVec 2048 × Bool :=
  ps.foldl (fun a p => drawBit p.1 p.2 true a) acc

theorem flipAll_append (ps qs : List (Nat × Nat)) (acc : BitVec 2048 × Bool) :
    flipAll (ps ++ qs) acc = flipAll qs (flipAll ps acc) := List.foldl_append

theorem drawRow_eq (x0 y : Nat) (b : Byte) (acc : BitVec 2048 × Bool) :
    drawRow x0 y b acc = flipAll (rowTargets x0 y b) acc := by
  have h : ∀ (cs : List Nat) (acc : BitVec 2048 × Bool),
      cs.foldl (fun acc c => drawBit ((x0 + c) % 64) y (b.getLsbD (7 - c)) acc) acc =
        flipAll ((cs.filter (fun c => b.getLsbD (7 - c))).map (fun c => ((x0 + c) % 64, y))) acc := by
    intro cs
    induction cs with
    | nil => intro acc; rfl
    | cons c cs ih =>
      intro acc
      simp only [List.foldl_cons]
      rw [ih]
      cases hb : b.getLsbD (7 - c) with
      | false => rw [List.filter_cons_of_neg (by simp [hb])]; rfl
      | true => rw [List.filter_cons_of_pos (by simp [hb])]; rfl
  exact h _ _

/-- A draw is the inversion of its targets, in order. -/
theorem drawRows_eq (x0 y0 r : Nat) (bs : List Byte) (acc : BitVec 2048 × Bool) :
    drawRows x0 y0 r bs acc = flipAll (drawTargets x0 y0 r bs) acc := by
  induction bs generalizing r acc with
  | nil => rfl
  | cons b bs ih => simp only [drawRows, drawTargets]; rw [ih, drawRow_eq, flipAll_append]

theorem mem_rowTargets {x0 y : Nat} {b : Byte} {p : Nat × Nat} :
    p ∈ rowTargets x0 y b ↔ ∃ c, c < 8 ∧ b.getLsbD (7 - c) = true ∧ p = ((x0 + c) % 64, y) := by
  simp only [rowTargets, List.mem_map, List.mem_filter, List.mem_range]
  constructor
  · rintro ⟨c, ⟨h1, h2⟩, h3⟩; exact ⟨c, h1, h2, h3.symm⟩
  · rintro ⟨c, h1, h2, h3⟩; exact ⟨c, ⟨h1, h2⟩, h3.symm⟩

/-- A pixel is a target when some 1 bit of some row lands on it (R141). -/
theorem mem_drawTargets {x0 y0 r : Nat} {bs : List Byte} {p : Nat × Nat} :
    p ∈ drawTargets x0 y0 r bs ↔
      ∃ k c, ∃ h : k < bs.length, c < 8 ∧ bs[k].getLsbD (7 - c) = true ∧ p = ((x0 + c) % 64, (y0 + (r + k)) % 32) := by
  induction bs generalizing r with
  | nil => simp [drawTargets]
  | cons b bs ih =>
    simp only [drawTargets, List.mem_append, mem_rowTargets, ih]
    constructor
    · rintro (⟨c, h1, h2, h3⟩ | ⟨k, c, hk, h1, h2, h3⟩)
      · exact ⟨0, c, by simp, h1, h2, h3⟩
      · exact ⟨k + 1, c, by simpa using hk, h1, h2, by rw [h3]; congr 2; omega⟩
    · rintro ⟨k, c, hk, h1, h2, h3⟩
      cases k with
      | zero => exact .inl ⟨c, h1, h2, h3⟩
      | succ k => exact .inr ⟨k, c, by simpa using hk, h1, h2, by rw [h3]; congr 2; omega⟩

theorem rowTargets_nodup (x0 y : Nat) (b : Byte) : (rowTargets x0 y b).Nodup := by
  apply List.Nodup.map_on _ (List.nodup_range.filter _)
  intro c hc c' hc' h
  simp only [List.mem_filter, List.mem_range] at hc hc'
  simp only [Prod.mk.injEq] at h
  omega

/-- The targets of at most 32 rows are pairwise distinct (R141, corner case (c)). -/
theorem drawTargets_nodup (x0 y0 r : Nat) (bs : List Byte) (h : bs.length ≤ 32) : (drawTargets x0 y0 r bs).Nodup := by
  induction bs generalizing r with
  | nil => exact List.nodup_nil
  | cons b bs ih =>
    simp only [List.length_cons] at h
    simp only [drawTargets]
    refine List.Nodup.append (rowTargets_nodup _ _ _) (ih _ (by omega)) ?_
    intro p hp hq
    obtain ⟨c, -, -, rfl⟩ := mem_rowTargets.mp hp
    obtain ⟨k, c', hk, -, -, h3⟩ := mem_drawTargets.mp hq
    simp only [Prod.mk.injEq] at h3
    omega

/-- Inverting distinct pixels of the display: each pixel is inverted exactly when it is listed, and the flag says whether
a listed pixel was on. -/
theorem flipAll_spec (ps : List (Nat × Nat)) (hd : ps.Nodup) (hb : ∀ p ∈ ps, p.1 < 64 ∧ p.2 < 32) (d : BitVec 2048)
    (hit : Bool) :
    (∀ x y, x < 64 → pixelOf (flipAll ps (d, hit)).1 x y = (pixelOf d x y ^^ decide ((x, y) ∈ ps))) ∧
    ((flipAll ps (d, hit)).2 = true ↔ hit = true ∨ ∃ p ∈ ps, pixelOf d p.1 p.2 = true) := by
  induction ps generalizing d hit with
  | nil => simp [flipAll]
  | cons p ps ih =>
    simp only [List.nodup_cons] at hd
    have hp := hb p (by simp)
    obtain ⟨i1, i2⟩ := ih hd.2 (fun q hq => hb q (by simp [hq])) (flipPixel d p.1 p.2) (hit || pixelOf d p.1 p.2)
    have e : flipAll (p :: ps) (d, hit) = flipAll ps (flipPixel d p.1 p.2, hit || pixelOf d p.1 p.2) := rfl
    rw [e]
    refine ⟨?_, ?_⟩
    · intro x y hx
      rw [i1 x y hx, pixelOf_flipPixel d hp.1 hp.2 hx, Bool.xor_assoc]
      congr 1
      by_cases h1 : x = p.1 ∧ y = p.2
      · have : (x, y) = p := by rw [h1.1, h1.2]
        simp [h1, hd.1]
      · have : (x, y) ≠ p := fun e => h1 (by rw [← e]; exact ⟨rfl, rfl⟩)
        simp [h1, this]
    · rw [i2]
      simp only [Bool.or_eq_true, List.mem_cons]
      constructor
      · rintro ((h | h) | ⟨q, hq, h⟩)
        · exact .inl h
        · exact .inr ⟨p, .inl rfl, h⟩
        · have hqb := hb q (by simp [hq])
          rw [pixelOf_flipPixel d hp.1 hp.2 hqb.1] at h
          have : ¬ (q.1 = p.1 ∧ q.2 = p.2) := fun e => hd.1 (by rwa [show p = q from Prod.ext e.1.symm e.2.symm])
          rw [decide_eq_false this, Bool.xor_false] at h
          exact .inr ⟨q, .inr hq, h⟩
      · rintro (h | ⟨q, rfl | hq, h⟩)
        · exact .inl (.inl h)
        · exact .inl (.inr h)
        · refine .inr ⟨q, hq, ?_⟩
          have hqb := hb q (by simp [hq])
          have : ¬ (q.1 = p.1 ∧ q.2 = p.2) := fun e => hd.1 (by rwa [show p = q from Prod.ext e.1.symm e.2.symm])
          rw [pixelOf_flipPixel d hp.1 hp.2 hqb.1, decide_eq_false this, Bool.xor_false, h]

/-- Everything a draw of at most 32 rows does. -/
theorem drawRows_spec (x0 y0 : Nat) (bs : List Byte) (h : bs.length ≤ 32) (d : BitVec 2048) :
    (∀ x y, x < 64 →
      pixelOf (drawRows x0 y0 0 bs (d, false)).1 x y = (pixelOf d x y ^^ decide ((x, y) ∈ drawTargets x0 y0 0 bs))) ∧
    ((drawRows x0 y0 0 bs (d, false)).2 = true ↔ ∃ p ∈ drawTargets x0 y0 0 bs, pixelOf d p.1 p.2 = true) := by
  have hb : ∀ p ∈ drawTargets x0 y0 0 bs, p.1 < 64 ∧ p.2 < 32 := by
    intro p hp
    obtain ⟨k, c, -, -, -, rfl⟩ := mem_drawTargets.mp hp
    exact ⟨Nat.mod_lt _ (by decide), Nat.mod_lt _ (by decide)⟩
  have := flipAll_spec _ (drawTargets_nodup x0 y0 0 bs h) hb d false
  rw [drawRows_eq]
  simpa using this

/-- Two displays with the same pixels are equal. -/
theorem display_ext {d e : BitVec 2048} (h : ∀ x y, x < 64 → y < 32 → pixelOf d x y = pixelOf e x y) : d = e := by
  apply BitVec.eq_of_getLsbD_eq
  intro k hk
  have := h (k % 64) (k / 64) (Nat.mod_lt _ (by decide)) (by omega)
  unfold pixelOf pixelIndex at this
  rwa [show k / 64 * 64 + k % 64 = k by omega] at this

end Sys2Proof.Machine
end

