-- ==== Sys2Proof/Laws/Load.lean ====
section
/-!
SUPPORT. What LOAD leaves in memory (70_reset_and_hazards.md R190): one lemma for every byte, and the canonical form.
-/

namespace Sys2Proof.Machine

/-- The ROMs that fit lie inside the address space from 0x200 on (R191). -/
theorem romFits_bound {rom : List Byte} (h : romFits rom = true) : progBase + rom.length ≤ memSize := by
  have : rom.length ≤ 3584 := of_decide_eq_true h
  show 512 + rom.length ≤ 4096
  omega

/-- Memory after LOAD is canonical. -/
theorem Memory.ofRom_wf {cfg : Config} {rom : List Byte} (h : romFits rom = true) :
    Memory.wf cfg (Memory.ofRom cfg rom) = true := Memory.writeRun_wf rom rfl (romFits_bound h)

/-- Every byte of memory after LOAD: ROM byte j at 0x200 + j, the font and zeros elsewhere. -/
theorem Memory.read_ofRom {cfg : Config} {rom : List Byte} (h : romFits rom = true) (c : Nat) :
    Memory.read cfg (Memory.ofRom cfg rom) c =
      if hc : progBase ≤ c ∧ c < progBase + rom.length then rom[c - progBase]'(by omega) else Memory.initial cfg c :=
  Memory.read_writeRun rom rfl (romFits_bound h) c

/-- Below 0x200 memory after LOAD is as without a ROM: the font and zeros. -/
theorem Memory.read_ofRom_below {cfg : Config} {rom : List Byte} (h : romFits rom = true) {c : Nat} (hc : c < progBase) :
    Memory.read cfg (Memory.ofRom cfg rom) c = Memory.initial cfg c := by
  rw [Memory.read_ofRom h, dif_neg (by omega)]

/-- Row r of glyph g stands at 5 * g + r (10_state.md R24). -/
theorem fontByte_glyph (cfg : Config) (g : Fin 16) (r : Fin 5) : fontByte cfg (5 * g.val + r.val) = (cfg.font[g.val])[r.val] := by
  have hd : (5 * g.val + r.val) / 5 = g.val := by omega
  have hm : (5 * g.val + r.val) % 5 = r.val := by omega
  simp only [fontByte, hd, hm]
  exact dif_pos (by omega)

end Sys2Proof.Machine
end

