-- ==== Sys2Proof/Laws/PerInstr.lean ====
section
/-!
SUPPORT. Per instruction: its encoded word is selected by its own row of the opcode map (30_encoding.md R64, R65), and the
row is in the map. The statement is about the instruction as syntax only.
-/

namespace Sys2Proof.Laws.OwnRow

/-- The instruction is well formed and its row selects its encoded word. -/
def Statement (i : Instr) : Prop := i.wellFormed = true ∧ i.row.selects (encode i) = true

/-- An XNN word is selected by its row. -/
theorem selects_packXNN (op x : Nibble) (nn : Byte) : Row.selects ⟨0xF000#16, packNNN op 0#12⟩ (packXNN op x nn) = true := by
  simp [Row.selects, and_mask_op]

/-- An NNN word is selected by its row. -/
theorem selects_packNNN (op : Nibble) (nnn : Addr) : Row.selects ⟨0xF000#16, packNNN op 0#12⟩ (packNNN op nnn) = true := by
  simp [Row.selects, and_mask_op]

/-- An XYN word is selected by its row. -/
theorem selects_packXYN (op x y n : Nibble) : Row.selects ⟨0xF000#16, packNNN op 0#12⟩ (packXYN op x y n) = true := by
  simp [Row.selects, and_mask_op]

/-- An XY word is selected by its row, which fixes N. -/
theorem selects_packXY (op x y n : Nibble) :
    Row.selects ⟨0xF00F#16, packXYN op 0#4 0#4 n⟩ (packXYN op x y n) = true := by
  simp [Row.selects, and_mask_op_n]

/-- An X word is selected by its row, which fixes NN. -/
theorem selects_packX (op x : Nibble) (nn : Byte) :
    Row.selects ⟨0xF0FF#16, packXNN op 0#4 nn⟩ (packXNN op x nn) = true := by
  simp [Row.selects, and_mask_op_nn]

theorem cls : Statement .cls := ⟨rfl, rfl⟩
theorem ret : Statement .ret := ⟨rfl, rfl⟩
theorem jpAddr (nnn : Addr) : Statement (.jpAddr nnn) := ⟨rfl, selects_packNNN _ _⟩
theorem callAddr (nnn : Addr) : Statement (.callAddr nnn) := ⟨rfl, selects_packNNN _ _⟩
theorem seVxByte (x : Nibble) (nn : Byte) : Statement (.seVxByte x nn) := ⟨rfl, selects_packXNN _ _ _⟩
theorem sneVxByte (x : Nibble) (nn : Byte) : Statement (.sneVxByte x nn) := ⟨rfl, selects_packXNN _ _ _⟩
theorem seVxVy (x y : Nibble) : Statement (.seVxVy x y) := ⟨rfl, selects_packXY _ _ _ _⟩
theorem ldVxByte (x : Nibble) (nn : Byte) : Statement (.ldVxByte x nn) := ⟨rfl, selects_packXNN _ _ _⟩
theorem addVxByte (x : Nibble) (nn : Byte) : Statement (.addVxByte x nn) := ⟨rfl, selects_packXNN _ _ _⟩
theorem ldVxVy (x y : Nibble) : Statement (.ldVxVy x y) := ⟨rfl, selects_packXY _ _ _ _⟩
theorem orVxVy (x y : Nibble) : Statement (.orVxVy x y) := ⟨rfl, selects_packXY _ _ _ _⟩
theorem andVxVy (x y : Nibble) : Statement (.andVxVy x y) := ⟨rfl, selects_packXY _ _ _ _⟩
theorem xorVxVy (x y : Nibble) : Statement (.xorVxVy x y) := ⟨rfl, selects_packXY _ _ _ _⟩
theorem addVxVy (x y : Nibble) : Statement (.addVxVy x y) := ⟨rfl, selects_packXY _ _ _ _⟩
theorem subVxVy (x y : Nibble) : Statement (.subVxVy x y) := ⟨rfl, selects_packXY _ _ _ _⟩
theorem shrVxVy (x y : Nibble) : Statement (.shrVxVy x y) := ⟨rfl, selects_packXY _ _ _ _⟩
theorem subnVxVy (x y : Nibble) : Statement (.subnVxVy x y) := ⟨rfl, selects_packXY _ _ _ _⟩
theorem shlVxVy (x y : Nibble) : Statement (.shlVxVy x y) := ⟨rfl, selects_packXY _ _ _ _⟩
theorem sneVxVy (x y : Nibble) : Statement (.sneVxVy x y) := ⟨rfl, selects_packXY _ _ _ _⟩
theorem ldIAddr (nnn : Addr) : Statement (.ldIAddr nnn) := ⟨rfl, selects_packNNN _ _⟩
theorem jpV0Addr (nnn : Addr) : Statement (.jpV0Addr nnn) := ⟨rfl, selects_packNNN _ _⟩
theorem rndVxByte (x : Nibble) (nn : Byte) : Statement (.rndVxByte x nn) := ⟨rfl, selects_packXNN _ _ _⟩
theorem drwVxVyN (x y n : Nibble) : Statement (.drwVxVyN x y n) := ⟨rfl, selects_packXYN _ _ _ _⟩
theorem skpVx (x : Nibble) : Statement (.skpVx x) := ⟨rfl, selects_packX _ _ _⟩
theorem sknpVx (x : Nibble) : Statement (.sknpVx x) := ⟨rfl, selects_packX _ _ _⟩
theorem ldVxDt (x : Nibble) : Statement (.ldVxDt x) := ⟨rfl, selects_packX _ _ _⟩
theorem ldVxK (x : Nibble) : Statement (.ldVxK x) := ⟨rfl, selects_packX _ _ _⟩
theorem ldDtVx (x : Nibble) : Statement (.ldDtVx x) := ⟨rfl, selects_packX _ _ _⟩
theorem ldStVx (x : Nibble) : Statement (.ldStVx x) := ⟨rfl, selects_packX _ _ _⟩
theorem addIVx (x : Nibble) : Statement (.addIVx x) := ⟨rfl, selects_packX _ _ _⟩
theorem ldFVx (x : Nibble) : Statement (.ldFVx x) := ⟨rfl, selects_packX _ _ _⟩
theorem ldBVx (x : Nibble) : Statement (.ldBVx x) := ⟨rfl, selects_packX _ _ _⟩
theorem ldMemVx (x : Nibble) : Statement (.ldMemVx x) := ⟨rfl, selects_packX _ _ _⟩
theorem ldVxMem (x : Nibble) : Statement (.ldVxMem x) := ⟨rfl, selects_packX _ _ _⟩

end Sys2Proof.Laws.OwnRow
end

