-- ==== Sys2Proof/Machine/Assembly.lean ====
section
/-!
DEFINITION. The assembly text of an instruction (30_encoding.md R73): the mnemonic column of R65 with `Vx`, `Vy`, `byte`,
`addr` and `N` filled in, destination first. Numbers are written as the spec's examples write them (log entry 23). No
instruction's effect depends on it.
-/

namespace Sys2Proof.Machine

/-- A hexadecimal digit (R73). -/
def hexDigit (n : Nibble) : String :=
  match n.toNat with
  | 0 => "0" | 1 => "1" | 2 => "2" | 3 => "3" | 4 => "4" | 5 => "5" | 6 => "6" | 7 => "7"
  | 8 => "8" | 9 => "9" | 10 => "A" | 11 => "B" | 12 => "C" | 13 => "D" | 14 => "E" | _ => "F"

/-- `V0` to `VF` (R73). -/
def regText (x : Nibble) : String := "V" ++ hexDigit x

/-- `byte`: two hexadecimal digits. -/
def byteText (nn : Byte) : String := "0x" ++ hexDigit (nn.extractLsb' 4 4) ++ hexDigit (nn.extractLsb' 0 4)

/-- `addr`: three hexadecimal digits. -/
def addrText (nnn : Addr) : String :=
  "0x" ++ hexDigit (nnn.extractLsb' 8 4) ++ hexDigit (nnn.extractLsb' 4 4) ++ hexDigit (nnn.extractLsb' 0 4)

/-- `N`: decimal. -/
def countText (n : Nibble) : String := if n.toNat < 10 then hexDigit n else "1" ++ hexDigit (n - 10#4)

/-- The assembly text of an instruction (R65, R73, D27). -/
def assembly : Instr → String
  | .cls => "CLS"
  | .ret => "RET"
  | .jpAddr nnn => "JP " ++ addrText nnn
  | .callAddr nnn => "CALL " ++ addrText nnn
  | .seVxByte x nn => "SE " ++ regText x ++ "," ++ byteText nn
  | .sneVxByte x nn => "SNE " ++ regText x ++ "," ++ byteText nn
  | .seVxVy x y => "SE " ++ regText x ++ "," ++ regText y
  | .ldVxByte x nn => "LD " ++ regText x ++ "," ++ byteText nn
  | .addVxByte x nn => "ADD " ++ regText x ++ "," ++ byteText nn
  | .ldVxVy x y => "LD " ++ regText x ++ "," ++ regText y
  | .orVxVy x y => "OR " ++ regText x ++ "," ++ regText y
  | .andVxVy x y => "AND " ++ regText x ++ "," ++ regText y
  | .xorVxVy x y => "XOR " ++ regText x ++ "," ++ regText y
  | .addVxVy x y => "ADD " ++ regText x ++ "," ++ regText y
  | .subVxVy x y => "SUB " ++ regText x ++ "," ++ regText y
  | .shrVxVy x y => "SHR " ++ regText x ++ "," ++ regText y
  | .subnVxVy x y => "SUBN " ++ regText x ++ "," ++ regText y
  | .shlVxVy x y => "SHL " ++ regText x ++ "," ++ regText y
  | .sneVxVy x y => "SNE " ++ regText x ++ "," ++ regText y
  | .ldIAddr nnn => "LD I," ++ addrText nnn
  | .jpV0Addr nnn => "JP V0," ++ addrText nnn
  | .rndVxByte x nn => "RND " ++ regText x ++ "," ++ byteText nn
  | .drwVxVyN x y n => "DRW " ++ regText x ++ "," ++ regText y ++ "," ++ countText n
  | .skpVx x => "SKP " ++ regText x
  | .sknpVx x => "SKNP " ++ regText x
  | .ldVxDt x => "LD " ++ regText x ++ ",DT"
  | .ldVxK x => "LD " ++ regText x ++ ",K"
  | .ldDtVx x => "LD DT," ++ regText x
  | .ldStVx x => "LD ST," ++ regText x
  | .addIVx x => "ADD I," ++ regText x
  | .ldFVx x => "LD F," ++ regText x
  | .ldBVx x => "LD B," ++ regText x
  | .ldMemVx x => "LD [I]," ++ regText x
  | .ldVxMem x => "LD " ++ regText x ++ ",[I]"

end Sys2Proof.Machine
end

