-- ==== Sys2Proof/Tests/Slice0.lean ====
section
/-!
SUPPORT. Tests. Their expected results are those of spec/95_test_vectors.md (the id is named at each) or are worked out by
hand from the rule named; a `witness_` theorem shows a state and operands that meet the hypotheses of the obligation it is
named after, at a boundary of their range.
-/

namespace Sys2Proof.Tests

open Sys2Proof.Machine

/-! ## Well-formedness: an ill-formed word for each group of 30_encoding.md R70, an ill-fitting ROM (R191) -/

theorem test_illegal_op0 : legalWord 0x00E1#16 = false ∧ legalWord 0x0000#16 = false ∧
    legalWord 0x0FFF#16 = false := by decide
theorem test_illegal_op5 : legalWord 0x5AB1#16 = false := by decide
theorem test_illegal_op8 : legalWord 0x8AB8#16 = false ∧ legalWord 0x8ABD#16 = false ∧
    legalWord 0x8ABF#16 = false := by decide
theorem test_illegal_op9 : legalWord 0x9ABF#16 = false := by decide
theorem test_illegal_opE : legalWord 0xE19F#16 = false ∧ legalWord 0xE100#16 = false ∧
    legalWord 0xE1FF#16 = false := by decide
theorem test_illegal_opF : legalWord 0xF100#16 = false ∧ legalWord 0xF130#16 = false ∧
    legalWord 0xF175#16 = false := by decide
theorem test_legal : legalWord 0x8AB4#16 = true ∧ legalWord 0xD120#16 = true ∧ legalWord 0xF165#16 = true := by decide
theorem test_wellFormed : Instr.wellFormed .cls = true ∧ Instr.wellFormed (.shlVxVy 0x0#4 0xF#4) = true := by decide
/-- A row that the map does not hold is refused (8XY8, R70). -/
theorem test_row_absent : opcodeMap.contains ⟨0xF00F#16, 0x8008#16⟩ = false := by decide
/-- S12: 3585 bytes do not fit, 3584 do. -/
theorem test_rom_too_large : romFits (List.replicate 3585 0#8) = false := by
  simp only [romFits, List.length_replicate]; decide
theorem test_rom_largest : romFits (List.replicate 3584 0#8) = true := by
  simp only [romFits, List.length_replicate]; decide

/-! ## Decoding: for every constructor a word written out from the opcode map (R65), and its encoding -/

theorem test_decode_cls : decodeWord 0x00E0#16 = .ok .cls ∧ encode .cls = 0x00E0#16 := by decide
theorem test_decode_ret : decodeWord 0x00EE#16 = .ok .ret ∧ encode .ret = 0x00EE#16 := by decide
theorem test_decode_jp_addr : decodeWord 0x1234#16 = .ok (.jpAddr 0x234#12) ∧
    encode (.jpAddr 0x234#12) = 0x1234#16 := by decide
theorem test_decode_call_addr : decodeWord 0x2ABC#16 = .ok (.callAddr 0xABC#12) ∧
    encode (.callAddr 0xABC#12) = 0x2ABC#16 := by decide
theorem test_decode_se_vx_byte : decodeWord 0x3A42#16 = .ok (.seVxByte 0xA#4 0x42#8) ∧
    encode (.seVxByte 0xA#4 0x42#8) = 0x3A42#16 := by decide
theorem test_decode_sne_vx_byte : decodeWord 0x4A42#16 = .ok (.sneVxByte 0xA#4 0x42#8) ∧
    encode (.sneVxByte 0xA#4 0x42#8) = 0x4A42#16 := by decide
theorem test_decode_se_vx_vy : decodeWord 0x5AB0#16 = .ok (.seVxVy 0xA#4 0xB#4) ∧
    encode (.seVxVy 0xA#4 0xB#4) = 0x5AB0#16 := by decide
theorem test_decode_ld_vx_byte : decodeWord 0x6005#16 = .ok (.ldVxByte 0x0#4 0x05#8) ∧
    encode (.ldVxByte 0x0#4 0x05#8) = 0x6005#16 := by decide
theorem test_decode_add_vx_byte : decodeWord 0x71FF#16 = .ok (.addVxByte 0x1#4 0xFF#8) ∧
    encode (.addVxByte 0x1#4 0xFF#8) = 0x71FF#16 := by decide
theorem test_decode_ld_vx_vy : decodeWord 0x8EF0#16 = .ok (.ldVxVy 0xE#4 0xF#4) ∧
    encode (.ldVxVy 0xE#4 0xF#4) = 0x8EF0#16 := by decide
theorem test_decode_or_vx_vy : decodeWord 0x8011#16 = .ok (.orVxVy 0x0#4 0x1#4) ∧
    encode (.orVxVy 0x0#4 0x1#4) = 0x8011#16 := by decide
theorem test_decode_and_vx_vy : decodeWord 0x8012#16 = .ok (.andVxVy 0x0#4 0x1#4) ∧
    encode (.andVxVy 0x0#4 0x1#4) = 0x8012#16 := by decide
theorem test_decode_xor_vx_vy : decodeWord 0x8013#16 = .ok (.xorVxVy 0x0#4 0x1#4) ∧
    encode (.xorVxVy 0x0#4 0x1#4) = 0x8013#16 := by decide
theorem test_decode_add_vx_vy : decodeWord 0x8AB4#16 = .ok (.addVxVy 0xA#4 0xB#4) ∧
    encode (.addVxVy 0xA#4 0xB#4) = 0x8AB4#16 := by decide
theorem test_decode_sub_vx_vy : decodeWord 0x8F15#16 = .ok (.subVxVy 0xF#4 0x1#4) ∧
    encode (.subVxVy 0xF#4 0x1#4) = 0x8F15#16 := by decide
theorem test_decode_shr_vx_vy : decodeWord 0x8016#16 = .ok (.shrVxVy 0x0#4 0x1#4) ∧
    encode (.shrVxVy 0x0#4 0x1#4) = 0x8016#16 := by decide
theorem test_decode_subn_vx_vy : decodeWord 0x8017#16 = .ok (.subnVxVy 0x0#4 0x1#4) ∧
    encode (.subnVxVy 0x0#4 0x1#4) = 0x8017#16 := by decide
theorem test_decode_shl_vx_vy : decodeWord 0x801E#16 = .ok (.shlVxVy 0x0#4 0x1#4) ∧
    encode (.shlVxVy 0x0#4 0x1#4) = 0x801E#16 := by decide
theorem test_decode_sne_vx_vy : decodeWord 0x9AB0#16 = .ok (.sneVxVy 0xA#4 0xB#4) ∧
    encode (.sneVxVy 0xA#4 0xB#4) = 0x9AB0#16 := by decide
theorem test_decode_ld_i_addr : decodeWord 0xAFFF#16 = .ok (.ldIAddr 0xFFF#12) ∧
    encode (.ldIAddr 0xFFF#12) = 0xAFFF#16 := by decide
theorem test_decode_jp_v0_addr : decodeWord 0xBFFF#16 = .ok (.jpV0Addr 0xFFF#12) ∧
    encode (.jpV0Addr 0xFFF#12) = 0xBFFF#16 := by decide
theorem test_decode_rnd_vx_byte : decodeWord 0xC00F#16 = .ok (.rndVxByte 0x0#4 0x0F#8) ∧
    encode (.rndVxByte 0x0#4 0x0F#8) = 0xC00F#16 := by decide
theorem test_decode_drw_vx_vy_n : decodeWord 0xD12F#16 = .ok (.drwVxVyN 0x1#4 0x2#4 0xF#4) ∧
    encode (.drwVxVyN 0x1#4 0x2#4 0xF#4) = 0xD12F#16 := by decide
theorem test_decode_skp_vx : decodeWord 0xE19E#16 = .ok (.skpVx 0x1#4) ∧ encode (.skpVx 0x1#4) = 0xE19E#16 := by decide
theorem test_decode_sknp_vx : decodeWord 0xE1A1#16 = .ok (.sknpVx 0x1#4) ∧ encode (.sknpVx 0x1#4) = 0xE1A1#16 := by decide
theorem test_decode_ld_vx_dt : decodeWord 0xF207#16 = .ok (.ldVxDt 0x2#4) ∧
    encode (.ldVxDt 0x2#4) = 0xF207#16 := by decide
theorem test_decode_ld_vx_k : decodeWord 0xF10A#16 = .ok (.ldVxK 0x1#4) ∧ encode (.ldVxK 0x1#4) = 0xF10A#16 := by decide
theorem test_decode_ld_dt_vx : decodeWord 0xF115#16 = .ok (.ldDtVx 0x1#4) ∧
    encode (.ldDtVx 0x1#4) = 0xF115#16 := by decide
theorem test_decode_ld_st_vx : decodeWord 0xF118#16 = .ok (.ldStVx 0x1#4) ∧
    encode (.ldStVx 0x1#4) = 0xF118#16 := by decide
theorem test_decode_add_i_vx : decodeWord 0xF11E#16 = .ok (.addIVx 0x1#4) ∧
    encode (.addIVx 0x1#4) = 0xF11E#16 := by decide
theorem test_decode_ld_f_vx : decodeWord 0xF129#16 = .ok (.ldFVx 0x1#4) ∧ encode (.ldFVx 0x1#4) = 0xF129#16 := by decide
theorem test_decode_ld_b_vx : decodeWord 0xF133#16 = .ok (.ldBVx 0x1#4) ∧ encode (.ldBVx 0x1#4) = 0xF133#16 := by decide
theorem test_decode_ld_mem_vx : decodeWord 0xF155#16 = .ok (.ldMemVx 0x1#4) ∧
    encode (.ldMemVx 0x1#4) = 0xF155#16 := by decide
theorem test_decode_ld_vx_mem : decodeWord 0xF265#16 = .ok (.ldVxMem 0x2#4) ∧
    encode (.ldVxMem 0x2#4) = 0xF265#16 := by decide

/-- E3, E6, E8, E9, E12, E14: invalid words are refused under their group. -/
theorem test_decode_invalid :
    decodeWord 0x00EF#16 = .error (.invalid .op0 0x00EF#16) ∧ decodeWord 0x5AB1#16 = .error (.invalid .op5 0x5AB1#16) ∧
    decodeWord 0x8ABC#16 = .error (.invalid .op8 0x8ABC#16) ∧ decodeWord 0x9ABF#16 = .error (.invalid .op9 0x9ABF#16) ∧
    decodeWord 0xE1FF#16 = .error (.invalid .opE 0xE1FF#16) ∧
    decodeWord 0xF185#16 = .error (.invalid .opF 0xF185#16) := by
  decide
/-- 95_test_vectors.md, last line of its decode section: the fields of 0xD7A3. -/
theorem test_fields : opField 0xD7A3#16 = 0xD#4 ∧ xField 0xD7A3#16 = 0x7#4 ∧ yField 0xD7A3#16 = 0xA#4 ∧
    nField 0xD7A3#16 = 0x3#4 ∧ nnField 0xD7A3#16 = 0xA3#8 ∧ nnnField 0xD7A3#16 = 0x7A3#12 := by decide
/-- Bytes are read most significant first, and what follows is left (R43, R60). -/
theorem test_decode_bytes : decodeBytes [0x12#8, 0x34#8, 0x60#8] = .ok (.jpAddr 0x234#12, [0x60#8]) := by decide
theorem test_decode_truncated : decodeBytes [0x12#8] = .error .truncated ∧ decodeBytes [] = .error .truncated := by decide
theorem test_decodeTableWord : decodeTableWord 16 0x8AB4 = some (.addVxVy 0xA#4 0xB#4) ∧
    decodeTableWord 16 0x8AB8 = none := by
  decide

/-! ## One step -/

/-- The state a step answers, the state itself where it answers none. -/
def stepped (s : State) : State :=
  match step s with
  | .next t => t
  | _ => s

/-- The state after a step that runs the word `w` at pc. -/
def run1 (w : Nat) (s : State) : State := stepped (s.withFetchWord 16 w)

/-- The reset state with every quirk boolean set. -/
def quirks : State :=
  { State.reset with cfg := { defaultConfig with
      shiftUsesVy := true, loadStoreIncrementsI := true, addISetsVf := true, addressWrap := true } }

/-- The reset state with V0 and V1 set. -/
def with01 (a b : Byte) : State := (State.reset.setV 0x0#4 a).setV 0x1#4 b

/-- Result and flag of a word working on V0 and V1. -/
def alu01 (w : Nat) (a b : Byte) : Byte × Byte := ((run1 w (with01 a b)).getV 0x0#4, (run1 w (with01 a b)).getV 0xF#4)

/-- T1, F1. -/
theorem test_T1_fetch_jp : (run1 0x1234 State.reset).pc = 0x0234#16 := by decide
/-- T2: an odd pc is no error. -/
theorem test_T2_odd_pc :
    (run1 0x6077 (State.reset.setPc 0x0201#16)).getV 0x0#4 = 0x77#8 ∧
    (run1 0x6077 (State.reset.setPc 0x0201#16)).pc = 0x0203#16 := by
  decide
/-- T3. -/
theorem test_T3_last_word : (run1 0x6001 (State.reset.setPc 0x0FFE#16)).pc = 0x1000#16 := by decide
/-- T5. -/
theorem test_T5_second_byte_out :
    (stepped (State.reset.setPc 0x0FFF#16)).errInfo = 0x1000#17 ∧ (stepped (State.reset.setPc 0x0FFF#16)).pc = 0x0FFF#16 ∧
    (stepped (State.reset.setPc 0x0FFF#16)).errKind = some .outOfBoundsAddress := by
  decide
/-- T6: the second byte is glyph 0's first row at 0x000. -/
theorem test_T6_wrapped_fetch :
    (stepped ((quirks.setPc 0x0FFF#16).write 0x0FFF 0x60#8)).getV 0x0#4 = 0xF0#8 ∧
    (stepped ((quirks.setPc 0x0FFF#16).write 0x0FFF 0x60#8)).pc = 0x1001#16 := by
  decide
/-- T8. -/
theorem test_T8_invalid :
    (run1 0x5121 State.reset).pc = 0x0202#16 ∧ (run1 0x5121 State.reset).effects.invalidOpcode = some 0x5121#16 ∧
    (run1 0x5121 State.reset).runState = .running := by
  decide
/-- T9. -/
theorem test_T9_paused : step (State.reset.setRunState .paused) = .next (State.reset.setRunState .paused) := by rfl
/-- T11, T12, T13. -/
theorem test_T11_T12_T13_ignored :
    (pause (State.reset.setRunState .waitingForKey)).runState = .waitingForKey ∧
    (quit (State.reset.setRunState .error)).runState = .error ∧
    (outputs (quit (State.reset.setRunState .paused))).isQuit = true := by
  decide
/-- F2. -/
theorem test_F2_call :
    (run1 0x2ABC State.reset).stack[0]? = some 0x0202#16 ∧ (run1 0x2ABC State.reset).sp = 1 ∧
    (run1 0x2ABC State.reset).pc = 0x0ABC#16 := by
  decide
/-- P6, the 17th step. -/
theorem test_P6_overflow :
    (run1 0x2200 { State.reset with sp := 16 }).errKind = some .stackOverflow ∧
    (run1 0x2200 { State.reset with sp := 16 }).errInfo = 0x0202#17 ∧
    (run1 0x2200 { State.reset with sp := 16 }).pc = 0x0202#16 := by
  decide
/-- F3. -/
theorem test_F3_ret :
    (run1 0x00EE (run1 0x2ABC State.reset)).pc = 0x0202#16 ∧ (run1 0x00EE (run1 0x2ABC State.reset)).sp = 0 ∧
    (run1 0x00EE (run1 0x2ABC State.reset)).stack[0]? = some 0x0202#16 := by
  decide
/-- P5. -/
theorem test_P5_underflow :
    (run1 0x00EE State.reset).errKind = some .stackUnderflow ∧ (run1 0x00EE State.reset).errInfo = 0x0202#17 := by
  decide
/-- F4, F5. -/
theorem test_F4_F5_se_byte :
    (run1 0x3A42 (State.reset.setV 0xA#4 0x42#8)).pc = 0x0204#16 ∧
    (run1 0x3A42 (State.reset.setV 0xA#4 0x43#8)).pc = 0x0202#16 := by
  decide
/-- F6, F7. -/
theorem test_F6_F7_sne_byte :
    (run1 0x4A42 (State.reset.setV 0xA#4 0x42#8)).pc = 0x0202#16 ∧
    (run1 0x4A42 (State.reset.setV 0xA#4 0x43#8)).pc = 0x0204#16 := by
  decide
/-- F8, F10. -/
theorem test_F8_F10_se_regs :
    (run1 0x5770 State.reset).pc = 0x0204#16 ∧ (run1 0x5120 (State.reset.setV 0x2#4 0xFF#8)).pc = 0x0202#16 := by
  decide
/-- F9, F10. -/
theorem test_F9_F10_sne_regs :
    (run1 0x9770 State.reset).pc = 0x0202#16 ∧ (run1 0x9120 (State.reset.setV 0x2#4 0xFF#8)).pc = 0x0204#16 := by
  decide
/-- F11. -/
theorem test_F11_jp_v0 :
    (run1 0xBFFF (with01 0xFF#8 0#8)).pc = 0x10FE#16 ∧
    (stepped (run1 0xBFFF (with01 0xFF#8 0#8))).errInfo = 0x10FE#17 := by
  decide
/-- A1. -/
theorem test_A1_ld_byte : (run1 0x6FAA State.reset).getV 0xF#4 = 0xAA#8 := by decide
/-- A2, A4. -/
theorem test_A2_A4_add_byte :
    (run1 0x7301 (State.reset.setV 0x3#4 0xFF#8)).getV 0x3#4 = 0x00#8 ∧
    (run1 0x7301 (State.reset.setV 0x3#4 0xFF#8)).getV 0xF#4 = 0x00#8 ∧
    (run1 0x7FFF (State.reset.setV 0xF#4 0x01#8)).getV 0xF#4 = 0x00#8 := by
  decide
/-- P3's sixth step, here with VF = 01. -/
theorem test_P3_ld_reg : (run1 0x8EF0 (State.reset.setV 0xF#4 0x01#8)).getV 0xE#4 = 0x01#8 := by decide
/-- A5: no flag. -/
theorem test_A5_or : alu01 0x8011 0x0F#8 0xF0#8 = (0xFF#8, 0x00#8) := by decide
theorem test_A5_and : alu01 0x8012 0x0F#8 0xF0#8 = (0x00#8, 0x00#8) := by decide
/-- A5, A5b. -/
theorem test_A5_xor :
    alu01 0x8013 0x0F#8 0xF0#8 = (0xFF#8, 0x00#8) ∧
    (run1 0x8223 (State.reset.setV 0x2#4 0x5A#8)).getV 0x2#4 = 0x00#8 := by
  decide
/-- A6. -/
theorem test_A6_add :
    alu01 0x8014 0x7F#8 0x80#8 = (0xFF#8, 0#8) ∧ alu01 0x8014 0xFF#8 0x01#8 = (0x00#8, 1#8) ∧
    alu01 0x8014 0xC8#8 0x64#8 = (0x2C#8, 1#8) := by
  decide
/-- A7, A7b, A7c: the flag is written last. -/
theorem test_A7_add_vf :
    (run1 0x8F14 ((State.reset.setV 0xF#4 0xF0#8).setV 0x1#4 0x20#8)).getV 0xF#4 = 0x01#8 ∧
    (run1 0x80F4 ((State.reset.setV 0xF#4 0x01#8).setV 0x0#4 0xFF#8)).getV 0x0#4 = 0x00#8 ∧
    (run1 0x8F14 ((State.reset.setV 0xF#4 0x10#8).setV 0x1#4 0x20#8)).getV 0xF#4 = 0x00#8 := by
  decide
/-- A9. -/
theorem test_A9_sub :
    alu01 0x8015 0x0A#8 0x05#8 = (0x05#8, 1#8) ∧ alu01 0x8015 0x05#8 0x0A#8 = (0xFB#8, 0#8) ∧
    alu01 0x8015 0x33#8 0x33#8 = (0x00#8, 1#8) := by
  decide
/-- A8, A8b. -/
theorem test_A8_sub_vf :
    (run1 0x8F15 ((State.reset.setV 0xF#4 0x05#8).setV 0x1#4 0x03#8)).getV 0xF#4 = 0x01#8 ∧
    (run1 0x8F15 ((State.reset.setV 0xF#4 0x03#8).setV 0x1#4 0x05#8)).getV 0xF#4 = 0x00#8 := by
  decide
/-- A9. -/
theorem test_A9_subn :
    alu01 0x8017 0x0A#8 0x05#8 = (0xFB#8, 0#8) ∧ alu01 0x8017 0x00#8 0xFF#8 = (0xFF#8, 1#8) ∧
    alu01 0x8017 0x33#8 0x33#8 = (0x00#8, 1#8) := by
  decide
/-- A10. -/
theorem test_A10_shr :
    alu01 0x8016 0x01#8 0xFF#8 = (0x00#8, 1#8) ∧ alu01 0x8016 0xFF#8 0x00#8 = (0x7F#8, 1#8) ∧
    alu01 0x8016 0x80#8 0x01#8 = (0x40#8, 0#8) := by
  decide
/-- A11. -/
theorem test_A11_shr_vy :
    (run1 0x8016 ((quirks.setV 0x0#4 0xFF#8).setV 0x1#4 0x02#8)).getV 0x0#4 = 0x01#8 ∧
    (run1 0x8016 ((quirks.setV 0x0#4 0xFF#8).setV 0x1#4 0x02#8)).getV 0xF#4 = 0x00#8 := by
  decide
/-- A10. -/
theorem test_A10_shl :
    alu01 0x801E 0x80#8 0x00#8 = (0x00#8, 1#8) ∧ alu01 0x801E 0x40#8 0xFF#8 = (0x80#8, 0#8) ∧
    alu01 0x801E 0xFF#8 0x00#8 = (0xFE#8, 1#8) := by
  decide
/-- A11b. -/
theorem test_A11b_shl_vy :
    (run1 0x801E ((quirks.setV 0x0#4 0x00#8).setV 0x1#4 0x81#8)).getV 0x0#4 = 0x02#8 ∧
    (run1 0x801E ((quirks.setV 0x0#4 0x00#8).setV 0x1#4 0x81#8)).getV 0xF#4 = 0x01#8 := by
  decide
/-- A13c: with mask 00 the byte is 00 whatever is drawn. -/
theorem test_A13c_rnd : (run1 0xC000 State.reset).getV 0x0#4 = 0x00#8 ∧ (run1 0xC000 State.reset).draws = 1 := by
  refine ⟨?_, by decide⟩
  show Config.randomByte 0 &&& 0#8 = 0#8
  exact BitVec.and_zero
/-- M1. -/
theorem test_M1_ld_i : (run1 0xAFFF State.reset).i = 0x0FFF#16 := by decide
/-- M3, both settings of add_i_sets_vf. -/
theorem test_M3_add_i :
    (run1 0xF11E ((State.reset.setI 0x0FFF#16).setV 0x1#4 0x01#8)).i = 0x1000#16 ∧
    (run1 0xF11E ((State.reset.setI 0x0FFF#16).setV 0x1#4 0x01#8)).getV 0xF#4 = 0x00#8 ∧
    (run1 0xF11E ((quirks.setI 0x0FFF#16).setV 0x1#4 0x01#8)).getV 0xF#4 = 0x01#8 := by
  decide
/-- M4, M5. -/
theorem test_M4_M5_add_i :
    (run1 0xF11E ((State.reset.setI 0xFFFF#16).setV 0x1#4 0x02#8)).i = 0x0001#16 ∧
    (run1 0xFF1E ((quirks.setI 0x0FF0#16).setV 0xF#4 0x20#8)).getV 0xF#4 = 0x01#8 := by
  decide
/-- M6. -/
theorem test_M6_font :
    (run1 0xF029 (with01 0x0F#8 0#8)).i = 0x004B#16 ∧ (run1 0xF029 (with01 0xFF#8 0#8)).i = 0x04FB#16 := by
  decide
/-- M7. -/
theorem test_M7_bcd :
    ((run1 0xF033 ((with01 0xFE#8 0#8).setI 0x0300#16)).read 0x300,
    (run1 0xF033 ((with01 0xFE#8 0#8).setI 0x0300#16)).read 0x301,
      (run1 0xF033 ((with01 0xFE#8 0#8).setI 0x0300#16)).read 0x302) = (0x02#8, 0x05#8, 0x04#8) := by
  decide
/-- M14, both settings of address_wrap. -/
theorem test_M14_bcd_out :
    (run1 0xF133 ((with01 0#8 0x7B#8).setI 0x0FFF#16)).errInfo = 0x1000#17 ∧
    (run1 0xF133 ((with01 0#8 0x7B#8).setI 0x0FFF#16)).read 0x0FFF = 0x00#8 ∧
    (run1 0xF133 ((quirks.setV 0x1#4 0x7B#8).setI 0x0FFF#16)).read 0x0FFF = 0x01#8 ∧
    (run1 0xF133 ((quirks.setV 0x1#4 0x7B#8).setI 0x0FFF#16)).read 0x001 = 0x03#8 := by
  decide
/-- M8, both settings of load_store_increments_i. -/
theorem test_M8_store :
    (run1 0xF055 ((with01 0x11#8 0x22#8).setI 0x0400#16)).read 0x400 = 0x11#8 ∧
    (run1 0xF055 ((with01 0x11#8 0x22#8).setI 0x0400#16)).read 0x401 = 0x00#8 ∧
    (run1 0xF055 ((with01 0x11#8 0x22#8).setI 0x0400#16)).i = 0x0400#16 ∧
    (run1 0xF055 (quirks.setI 0x0400#16)).i = 0x0401#16 := by
  decide
/-- M12. -/
theorem test_M12_store_out :
    (run1 0xF255 ((with01 0x11#8 0x22#8).setI 0x0FFE#16)).errKind = some .outOfBoundsAddress ∧
    (run1 0xF255 ((with01 0x11#8 0x22#8).setI 0x0FFE#16)).read 0x0FFE = 0x00#8 ∧
    (run1 0xF255 ((with01 0x11#8 0x22#8).setI 0x0FFE#16)).pc = 0x0202#16 := by
  decide
/-- M10: glyph 0 read from the font. -/
theorem test_M10_load :
    ((run1 0xF465 State.reset).getV 0x0#4, (run1 0xF465 State.reset).getV 0x1#4,
    (run1 0xF465 State.reset).getV 0x4#4) = (0xF0#8, 0x90#8, 0xF0#8) ∧
    (run1 0xF465 State.reset).i = 0x0000#16 ∧ (run1 0xF465 quirks).i = 0x0005#16 := by
  decide
/-- M15. -/
theorem test_M15_load_out :
    (run1 0xF065 (State.reset.setI 0x1000#16)).errInfo = 0x1000#17 ∧
    (run1 0xF065 (quirks.setI 0x1000#16)).getV 0x0#4 = 0xF0#8 := by
  decide
/-- G1. -/
theorem test_G1_cls :
    (run1 0x00E0 (State.reset.setDisp (BitVec.allOnes 2048))).disp = 0#2048 ∧
    (run1 0x00E0 State.reset).effects.displayDirty = true := by
  decide +kernel
/-- The pixels of a list, lit, on a blank display. -/
def lit (ps : List (Nat × Nat)) : BitVec 2048 := ps.foldl (fun d p => flipPixel d p.1 p.2) 0#2048

/-- G2. -/
theorem test_G2_drw :
    (run1 0xD015 State.reset).disp = lit [(0,0),(1,0),(2,0),(3,0),(0,1),(3,1),(0,2),(3,2),(0,3),(3,3),(0,4),(1,4),(2,4),(3,4)] ∧
    (run1 0xD015 State.reset).getV 0xF#4 = 0x00#8 := by
  decide +kernel
/-- G4's start: two sprite bytes at 0x300, coordinates beyond both edges. -/
def g4 : State := (((with01 0xFF#8 0x3F#8).write 0x300 0xFF#8).write 0x301 0x81#8).setI 0x0300#16
/-- G4. -/
theorem test_G4_drw_wraps :
    (run1 0xD012 g4).disp = lit [(63,31),(0,31),(1,31),(2,31),(3,31),(4,31),(5,31),(6,31),(63,0),(6,0)] ∧
    (run1 0xD012 g4).getV 0xF#4 = 0x00#8 := by
  decide +kernel
/-- G8, G9. -/
theorem test_G8_G9_drw :
    (run1 0xD012 (State.reset.setI 0x0FFF#16)).effects.displayDirty = false ∧
    (run1 0xD012 (State.reset.setI 0x0FFF#16)).runState = .error ∧
    (run1 0xD015 (run1 0xD015 State.reset)).disp = 0#2048 ∧
    (run1 0xD015 (run1 0xD015 State.reset)).getV 0xF#4 = 0x01#8 := by
  decide +kernel
/-- K1, K2, K3. -/
theorem test_K1_K3_skp :
    (run1 0xE09E ((with01 0x05#8 0#8).setKeyLevel 0x5#4 true)).pc = 0x0204#16 ∧
    (run1 0xE09E (with01 0x05#8 0#8)).pc = 0x0202#16 ∧
    (run1 0xE09E ((with01 0x15#8 0#8).setKeyLevel 0x5#4 true)).pc = 0x0204#16 := by
  decide
/-- K1, K2. -/
theorem test_K1_K2_sknp :
    (run1 0xE0A1 ((with01 0x05#8 0#8).setKeyLevel 0x5#4 true)).pc = 0x0202#16 ∧
    (run1 0xE0A1 (with01 0x05#8 0#8)).pc = 0x0204#16 := by
  decide
/-- K4. -/
theorem test_K4_ld_vx_dt :
    (run1 0xF207 (State.reset.setDt 0x3C#8)).getV 0x2#4 = 0x3C#8 ∧
    (run1 0xF207 (State.reset.setDt 0x3C#8)).dt = 0x3C#8 := by
  decide
/-- K5. -/
theorem test_K5_ld_dt_vx : (run1 0xF115 (with01 0#8 0x07#8)).dt = 0x07#8 := by decide
/-- K6, K7, K8. -/
theorem test_K6_K7_K8_ld_st_vx :
    (run1 0xF118 (with01 0#8 0x02#8)).effects.soundChanged = some true ∧
    (run1 0xF118 (State.reset.setSt 0x05#8)).effects.soundChanged = some false ∧
    (run1 0xF118 ((with01 0#8 0x09#8).setSt 0x05#8)).effects.soundChanged = none := by
  decide
/-- S3. -/
theorem test_S3_ld_vx_k :
    (run1 0xF50A State.reset).runState = .waitingForKey ∧ (run1 0xF50A State.reset).waitReg = 0x5#4 ∧
    (run1 0xF50A State.reset).pc = 0x0202#16 ∧
    (stepped (setKey 0x3#4 true (run1 0xF50A State.reset))).getV 0x5#4 = 0x03#8 := by
  decide
/-- K13, K14, K15. -/
theorem test_K13_K14_held_key :
    (stepped (setKey 0x7#4 true (run1 0xF10A (State.reset.setKeyLevel 0x7#4 true)))).runState = .waitingForKey ∧
    (setKey 0x7#4 true (setKey 0x7#4 false (run1 0xF10A (State.reset.setKeyLevel 0x7#4 true)))).keyEvent = some 0x7#4 := by
  decide
/-- K9, K10. -/
theorem test_K9_K10_tick :
    ((tick ((State.reset.setDt 0x02#8).setSt 0x01#8)).dt,
    (tick ((State.reset.setDt 0x02#8).setSt 0x01#8)).st) = (0x01#8, 0x00#8) ∧ (tick State.reset).dt = 0x00#8 := by
  decide
/-- P7, address_wrap true. -/
theorem test_P7_wrap_overwrites_font :
    ((run1 0xF133 (quirks.setI 0x0FFF#16)).read 0x000, (run1 0xF133 (quirks.setI 0x0FFF#16)).read 0x001,
    (run1 0xF133 (quirks.setI 0x0FFF#16)).read 0x002) = (0x00#8, 0x00#8, 0x90#8) := by
  decide
/-- S1: the ROM stands at 0x200. -/
theorem test_S12_load :
    (loadResult [0x60#8], (loadedState defaultConfig 0 [0x60#8, 0x05#8]).read 0x201) = (.success, 0x05#8) := by
  decide
/-- 60_exceptions.md R160. -/
theorem test_error_codes :
    [.noError, .stackOverflow, .stackUnderflow, .outOfBoundsAddress, .invalidOpcode, .romTooLarge, .romUnreadable].map errorCode = [0, 1, 2, 3, 4, 5, 6] := by
  decide
/-- S11, E10, E11, P3: the assembly text. -/
theorem test_S11_E11_P3_assembly :
    [Instr.addVxVy 0xA#4 0xB#4, .drwVxVyN 0x1#4 0x2#4 0x5#4, .ldVxMem 0x2#4, .drwVxVyN 0x1#4 0x2#4 0xF#4, .ldVxByte 0x0#4 0x0A#8, .jpV0Addr 0xFFF#12].map assembly =
      ["ADD VA,VB", "DRW V1,V2,5", "LD V2,[I]", "DRW V1,V2,15", "LD V0,0x0A", "JP V0,0xFFF"] := by
  decide

/-! ## Witnesses: states and operands that meet each obligation's hypotheses -/

/-- A state in Error, as a fetch beyond memory leaves it. -/
def broken : State := stepped (State.reset.setPc 0x0FFF#16)

/-- A state in WaitingForKey on V5, as LD V5,K leaves it. -/
def waiting : State := run1 0xF50A State.reset

theorem reset_inv : State.reset.Inv := by constructor <;> decide
theorem broken_inv : broken.Inv := by constructor <;> decide
theorem waiting_inv : waiting.Inv := by constructor <;> decide

theorem witness_EncodeInvertsDecode : decodeWord 0x8AB4#16 = .ok (.addVxVy 0xA#4 0xB#4) := by decide
theorem witness_DecoderFollowsOpcodeMap :
    decodeWord 0x1234#16 = .ok (.jpAddr 0x234#12) ∧ legalWord 0x1234#16 = true ∧ legalWord 0x5AB1#16 = false ∧
    ⟨0xF000#16, 0x1000#16⟩ ∈ opcodeMap ∧ Row.selects ⟨0xF000#16, 0x1000#16⟩ 0x1234#16 = true := by
  decide
theorem witness_StepRunsDecodedInstruction :
    (State.reset.withFetchWord 16 0x6005).runState = .running ∧
    fetchWord (State.reset.withFetchWord 16 0x6005) = .ok 0x6005#16 ∧
    decodeWord 0x6005#16 = .ok (.ldVxByte 0x0#4 0x05#8) := by
  decide
theorem witness_FetchIsBigEndian_inside : (State.reset.setPc 0x0FFE#16).pc.toNat + 1 ≤ 4095 := by decide
theorem witness_FetchIsBigEndian_wrap : (quirks.setPc 0xFFFF#16).cfg.addressWrap = true := by decide
theorem witness_FetchIsBigEndian_edge :
    (State.reset.setPc 0x0FFF#16).pc.toNat = 0x0FFF ∧ (State.reset.setPc 0x0FFF#16).cfg.addressWrap = false := by
  decide
theorem witness_FetchBeyondMemoryStops :
    (State.reset.setPc 0x0FFF#16).runState = .running ∧ (State.reset.setPc 0x0FFF#16).cfg.addressWrap = false ∧
    4095 ≤ (State.reset.setPc 0x0FFF#16).pc.toNat ∧ 4095 ≤ (State.reset.setPc 0xFFFF#16).pc.toNat := by
  decide
theorem witness_InvalidOpcodeIsReportedNoop :
    State.reset.runState = .running ∧ fetchWord State.reset = .ok 0x0000#16 ∧
    decodeWord 0x0000#16 = .error (.invalid .op0 0x0000#16) := by
  decide
theorem witness_WaitCheckWritesTheKey :
    waiting.runState = .waitingForKey ∧ waiting.keyEvent = none ∧ (setKey 0xF#4 true waiting).runState = .waitingForKey ∧
    (setKey 0xF#4 true waiting).keyEvent = some 0xF#4 := by
  decide
theorem witness_StoppedStatesExecuteNothing :
    (pause State.reset).runState = .paused ∧ (quit State.reset).runState = .quit ∧ broken.runState = .error := by
  decide
theorem witness_StepEffectsReported : State.reset.Inv ∧ broken.Inv ∧ waiting.Inv := ⟨reset_inv, broken_inv, waiting_inv⟩
theorem witness_StepKeepsInvariant : State.reset.Inv ∧ ∃ t, step State.reset = .next t ∧ t.pc = 0x0202#16 :=
  ⟨reset_inv, _, rfl, by decide⟩
theorem witness_LoadedStateMeetsInvariant : romFits [] = true ∧ romFits (List.replicate 3584 0xFF#8) = true := by
  simp only [romFits, List.length_replicate]; decide
theorem witness_EveryRunKeepsInvariant : State.reset.Inv ∧ waiting.Inv := ⟨reset_inv, waiting_inv⟩
theorem witness_ErrorLeftOnlyByLoad : broken.runState = .error ∧ romFits [] = true := by decide
theorem witness_DevicesWrittenOnlyByTheirInstructions :
    (run1 0xF115 (with01 0#8 0x07#8)).dt ≠ 0#8 ∧ (run1 0xF118 (with01 0#8 0x07#8)).st ≠ 0#8 ∧
    (run1 0xD015 State.reset).disp ≠ 0#2048 ∧ waiting.waitReg ≠ 0#4 := by
  decide +kernel
theorem witness_MemoryAndStackWrittenOnlyByTheirInstructions :
    (run1 0xF055 ((with01 0x11#8 0#8).setI 0x0400#16)).read 0x400 ≠ State.reset.read 0x400 ∧
    (run1 0x2ABC State.reset).sp ≠ 0 := by
  decide
theorem witness_FlagWrittenOnlyByFlagInstructions :
    (run1 0x8014 (with01 0xFF#8 0x01#8)).getV 0xF#4 ≠ (with01 0xFF#8 0x01#8).getV 0xF#4 := by
  decide
theorem witness_PcAndIndexWrittenOnlyByTheirInstructions :
    (run1 0x1234 State.reset).pc ≠ 0x0202#16 ∧ (run1 0xAFFF State.reset).i ≠ 0#16 := by
  decide
theorem witness_FatalErrorIsPrecise_fetch : (State.reset.setPc 0x0FFF#16).runState = .running ∧
    ∃ t, step (State.reset.setPc 0x0FFF#16) = .next t ∧ t.runState = .error := ⟨rfl, _, rfl, by decide⟩
theorem witness_FatalErrorIsPrecise_instruction : (State.reset.withFetchWord 16 0x00EE).runState = .running ∧
    ∃ t, step (State.reset.withFetchWord 16 0x00EE) = .next t ∧ t.runState = .error :=
  ⟨by decide, stepped (State.reset.withFetchWord 16 0x00EE), rfl, by decide⟩
theorem witness_EachErrorHasItsCause : State.reset.runState ≠ .error ∧ { State.reset with sp := 16 }.sp.val = 16 ∧
    State.reset.sp.val = 0 ∧ ¬ AccessOk (State.reset.setI 0x0FFE#16) 3 ∧ ¬ AccessOk (State.reset.setI 0x0FF1#16) 16 := by
  simp only [AccessOk]; decide
theorem witness_JumpsGoToTheirTargets :
    State.reset.cfg.addressWrap = false ∧ 0x0FFF ≤ (0xFFF#12).toNat + (State.reset.getV 0x0#4).toNat ∧
    0x0FFF ≤ (0xF00#12).toNat + ((with01 0xFF#8 0#8).getV 0x0#4).toNat ∧
    quirks.cfg.addressWrap = true := by
  decide
theorem witness_CallPushesReturnAddress :
    { State.reset with sp := 15 }.sp.val < 16 ∧ { State.reset with sp := 16 }.sp.val = 16 := by
  decide
theorem witness_RetPopsIntoPc :
    0 < { State.reset with sp := 1 }.sp.val ∧ 0 < { State.reset with sp := 16 }.sp.val ∧ State.reset.sp.val = 0 := by
  decide
theorem witness_CallThenRetReturns : { State.reset with sp := 15 }.sp.val < 16 ∧
    ∃ t u : State, exec (.callAddr 0xABC#12) { State.reset with sp := 15 } = .next t ∧ u.stack = t.stack ∧ u.sp = t.sp :=
  ⟨by decide, _, _, rfl, rfl, rfl⟩
theorem witness_ShiftsMoveByOne : 0x02 = (if quirks.cfg.shiftUsesVy = true then (quirks.setV 0x1#4 0x02#8).getV 0x1#4
    else (quirks.setV 0x1#4 0x02#8).getV 0x0#4).toNat := by decide
theorem witness_AddIndexAndOverflow : quirks.cfg.addISetsVf = true ∧ State.reset.cfg.addISetsVf = false := by decide
/-- A program that loads F29's digit: ROM 60 0F F0 29, with V0 = 0F. -/
def fontUser : State := (loadedState defaultConfig 0 [0x60#8, 0x0F#8, 0xF0#8, 0x29#8]).setV 0x0#4 0x0F#8
theorem witness_FontAddressOfDigit_loaded :
    (fontUser.getV 0x0#4).toNat = (15 : Fin 16).val ∧ romFits [0x60#8, 0x0F#8, 0xF0#8, 0x29#8] = true ∧
    fontUser.mem = Memory.ofRom fontUser.cfg [0x60#8, 0x0F#8, 0xF0#8, 0x29#8] ∧ fontUser.mem ≠ [] := by
  decide
/-- The same program after it stored outside the font area. -/
theorem witness_FontAddressOfDigit_stored : ((fontUser.write 0x300 0x11#8).getV 0x0#4).toNat = (15 : Fin 16).val ∧
    ∀ a, a < 80 → (fontUser.write 0x300 0x11#8).read a = fontByte (fontUser.write 0x300 0x11#8).cfg a := by decide
theorem witness_BcdDigitsStored : Memory.wf (State.reset.setI 0x0FFD#16).cfg (State.reset.setI 0x0FFD#16).mem = true ∧
    AccessOk (State.reset.setI 0x0FFD#16) 3 ∧ AccessOk (quirks.setI 0xFFFF#16) 3 := by
  simp only [AccessOk]; decide
theorem witness_BlockStore : Memory.wf (State.reset.setI 0x0FF0#16).cfg (State.reset.setI 0x0FF0#16).mem = true ∧
    AccessOk (State.reset.setI 0x0FF0#16) ((0xF#4).toNat + 1) ∧ AccessOk (quirks.setI 0xFFFF#16) ((0xF#4).toNat + 1) := by
  simp only [AccessOk]; decide
theorem witness_BlockLoad : AccessOk (State.reset.setI 0x0FF0#16) ((0xF#4).toNat + 1) := by simp only [AccessOk]; decide
theorem witness_BlockStoreThenLoadRestores : Memory.wf quirks.cfg quirks.mem = true ∧
    AccessOk quirks ((0xF#4).toNat + 1) ∧
    ∃ t u : State, exec (.ldMemVx 0xF#4) quirks = .next t ∧ u.mem = t.mem ∧ u.cfg = t.cfg ∧ u.i = quirks.i :=
  ⟨by decide, .inr (.inr rfl), _, { State.reset with mem := _, cfg := _ }, rfl, rfl, rfl, rfl⟩
theorem witness_AccessBeyondMemoryStops : ¬ AccessOk (State.reset.setI 0x0FFE#16) 3 ∧
    ¬ AccessOk (State.reset.setI 0x1000#16) ((0x0#4).toNat + 1) ∧
    ¬ AccessOk (State.reset.setI 0x0FFF#16) (0x2#4).toNat := by
  simp only [AccessOk]; decide
/-- I and pc at the last two bytes of memory. -/
def selfStore : State := ((with01 0x60#8 0x05#8).setI 0x0FFE#16).setPc 0x0FFE#16
theorem witness_StoredCodeIsFetched : Memory.wf selfStore.cfg selfStore.mem = true ∧
    AccessOk selfStore ((0x1#4).toNat + 1) ∧ 1 ≤ (0x1#4).toNat ∧ selfStore.i = selfStore.pc := by
  simp only [AccessOk]; decide
theorem witness_DrwXorsCoveredPixels : AccessOk (State.reset.setI 0x0FF1#16) (0xF#4).toNat ∧
    AccessOk (State.reset.setI 0xFFFF#16) (0x0#4).toNat := by simp only [AccessOk]; decide
theorem witness_DrwTwiceRestoresDisplay : AccessOk State.reset (0x5#4).toNat ∧ ∃ t u : State,
    exec (.drwVxVyN 0x0#4 0x1#4 0x5#4) State.reset = .next t ∧ u.disp = t.disp ∧ u.mem = State.reset.mem ∧
      u.cfg = State.reset.cfg ∧ u.i = State.reset.i ∧ u.getV 0x0#4 = State.reset.getV 0x0#4 ∧
      u.getV 0x1#4 = State.reset.getV 0x1#4 := by
  have h : ∃ t, exec (.drwVxVyN 0x0#4 0x1#4 0x5#4) State.reset = .next t := ⟨_, rfl⟩
  obtain ⟨t, ht⟩ := h
  exact ⟨.inr (.inl (by decide)), t, State.reset.setDisp t.disp, ht, rfl, rfl, rfl, rfl, rfl, rfl⟩
theorem witness_SkipsOnKeys :
    State.reset.keys[(State.reset.getV 0x0#4).toNat % 16]? = some false ∧
    (setKey 0xF#4 true (with01 0xFF#8 0#8)).keys[((with01 0xFF#8 0#8).getV 0x0#4).toNat % 16]? = some true := by
  decide
theorem witness_SoundTimerLoadIsReported :
    State.reset.st.toNat = 0 ∧ ((with01 0x01#8 0#8).getV 0x0#4).toNat ≠ 0 ∧ (State.reset.setSt 0xFF#8).st.toNat ≠ 0 ∧
    (State.reset.getV 0x0#4).toNat = 0 := by
  decide
theorem witness_KeyWaitEndsByPress :
    waiting.runState = .waitingForKey ∧ waiting.keyEvent = none ∧ waiting.key 0x3#4 = false ∧
    (waiting.setKeyLevel 0x7#4 true).key 0x7#4 = true ∧ (waiting.setKeyLevel 0x7#4 true).keyEvent = none := by
  decide
theorem witness_LoadGivesResetTable :
    (List.replicate 3584 0xFF#8).length ≤ 3584 ∧ 3584 < (List.replicate 3585 0xFF#8).length ∧
    ([] : List Byte).length ≤ 3584 := by
  simp only [List.length_replicate]; decide
theorem witness_OnlyLoadBeforeFirstLoad :
    (Event.load (List.replicate 3584 0#8) = .load (List.replicate 3584 0#8) ∧ (List.replicate 3584 0#8).length ≤ 3584) ∧
    3584 < (List.replicate 3585 0#8).length ∧ ∀ rom, Event.step ≠ .load rom := by
  exact ⟨⟨rfl, by simp only [List.length_replicate, le_refl]⟩, by simp only [List.length_replicate]; decide, fun _ h => nomatch h⟩

end Sys2Proof.Tests
end

section
/-!
SUPPORT. Proofs for the control-flow statements (41_flow.md).
-/

namespace Sys2Proof.Machine

/-! ## Operands and frames the flow instructions share -/

/-- NNN is zero-extended to the 16 bits of pc (R102). -/
@[simp] theorem addrOperand_toNat (nnn : Addr) : (addrOperand nnn).toNat = nnn.toNat := by
  unfold addrOperand
  exact BitVec.toNat_setWidth_of_le (by decide)

/-- A fatal error changes nothing but the error latch, the run state and the error effect (R165). -/
theorem State.raise_onlyRaise (s : State) (k : FatalError) {info : Nat} (h : info < 2 ^ 17) :
    OnlyRaise k info s (s.raise k info) := by
  have hinfo : (s.raise k info).errInfo.toNat = info := by
    rw [State.raise_errInfo, BitVec.toNat_ofNat, Nat.mod_eq_of_lt h]
  exact ⟨fun _ _ => rfl, fun _ _ => rfl, rfl, rfl, hinfo, rfl, rfl⟩

/-- A program counter fits the 17 bits of err_info, so raising it keeps its value (R160). -/
theorem State.raise_pc_onlyRaise (s : State) (k : FatalError) : OnlyRaise k s.pc.toNat s (s.raise k s.pc.toNat) :=
  s.raise_onlyRaise k (by have := s.pc.isLt; omega)

/-! ## CALL addr (R102, R161) -/

theorem encode_callAddr_toNat (nnn : Addr) : (encode (.callAddr nnn)).toNat = 0x2000 + nnn.toNat :=
  packNNN_toNat 0x2#4 nnn

/-- The state after a CALL with room on the stack. -/
def State.called (s : State) (nnn : Addr) (h : s.sp.val < 16) : State :=
  { s with stack := s.stack.set s.sp.val s.pc h, sp := ⟨s.sp.val + 1, by omega⟩, pc := addrOperand nnn }

theorem exec_callAddr_of_lt (nnn : Addr) (s : State) (h : s.sp.val < 16) :
    exec (.callAddr nnn) s = .next (s.called nnn h) :=
  execCallAddr_of_lt nnn s h

theorem exec_callAddr_full (nnn : Addr) (s : State) (h : s.sp.val = 16) :
    exec (.callAddr nnn) s = .next (s.raise .stackOverflow s.pc.toNat) :=
  execCallAddr_full nnn s h

section
variable (s : State) (nnn : Addr) (h : s.sp.val < 16)

/-- The return address is in the slot sp named before the CALL. -/
theorem State.called_stack_top : (s.called nnn h).stack[s.sp.val]? = some s.pc :=
  Vector.getElem?_set_self h

theorem State.called_stack_other {k : Nat} (hk : k ≠ s.sp.val) : (s.called nnn h).stack[k]? = s.stack[k]? :=
  Vector.getElem?_set_ne h hk.symm

/-- A CALL leaves everything but pc, sp and the stack. -/
theorem State.called_frame : KeepsRegs [] s (s.called nnn h) ∧ KeepsMem [] s (s.called nnn h) ∧
    s.called nnn h =
      { s with pc := (s.called nnn h).pc, sp := (s.called nnn h).sp, stack := (s.called nnn h).stack } :=
  ⟨fun _ _ => rfl, fun _ _ => rfl, rfl⟩

end

/-- Settles O27: by the two outcomes of a push, onto a stack with room and onto a full one. -/
theorem callPushesReturnAddress : Obligations.CallPushesReturnAddress := by
  intro nnn s
  refine ⟨encode_callAddr_toNat nnn, fun hroom => ?_, fun hfull => ?_⟩
  · exact ⟨s.called nnn hroom, exec_callAddr_of_lt nnn s hroom, addrOperand_toNat nnn, rfl,
      s.called_stack_top nnn hroom, fun _ hk => s.called_stack_other nnn hroom hk, s.called_frame nnn hroom⟩
  · exact ⟨_, exec_callAddr_full nnn s hfull, s.raise_pc_onlyRaise .stackOverflow⟩

end Sys2Proof.Machine
end

section
/-!
SUPPORT. Proofs for the register statements (42_alu.md).
-/

namespace Sys2Proof.Machine

/-! ## Words and frames the register instructions share -/

/-- The words of format XNN, in the form the register statements use (R65). -/
theorem packXNN_toNat_hex (op x : Nibble) (nn : Byte) :
    (packXNN op x nn).toNat = 0x1000 * op.toNat + 0x100 * x.toNat + nn.toNat := by
  rw [packXNN_toNat]; omega

/-- The words 0x8XYN, in the form the register statements use (R65). -/
theorem packXYN_8_toNat (x y n : Nibble) :
    (packXYN 0x8#4 x y n).toNat = 0x8000 + n.toNat + 0x100 * x.toNat + 0x10 * y.toNat := by
  rw [packXYN_toNat, show (0x8#4).toNat = 8 from rfl]; omega

/-- A write of V[X] changes nothing else (R8). -/
theorem State.setV_onlyRegs (s : State) (x : Nibble) (b : Byte) : OnlyRegs [x] s (s.setV x b) := by
  have hregs : KeepsRegs [x] s (s.setV x b) := fun r hr =>
    s.getV_setV_other b (by simpa using hr)
  exact ⟨hregs, fun _ _ => rfl, rfl⟩

/-! ## What each instruction does: one write of V[X] (R110 to R115) -/

theorem exec_ldVxByte (x : Nibble) (nn : Byte) (s : State) : exec (.ldVxByte x nn) s = .next (s.setV x nn) := rfl

theorem exec_addVxByte (x : Nibble) (nn : Byte) (s : State) :
    exec (.addVxByte x nn) s = .next (s.setV x (s.getV x + nn)) := rfl

theorem exec_ldVxVy (x y : Nibble) (s : State) : exec (.ldVxVy x y) s = .next (s.setV x (s.getV y)) := rfl

theorem exec_orVxVy (x y : Nibble) (s : State) :
    exec (.orVxVy x y) s = .next (s.setV x (s.getV x ||| s.getV y)) := rfl

theorem exec_andVxVy (x y : Nibble) (s : State) :
    exec (.andVxVy x y) s = .next (s.setV x (s.getV x &&& s.getV y)) := rfl

theorem exec_xorVxVy (x y : Nibble) (s : State) :
    exec (.xorVxVy x y) s = .next (s.setV x (s.getV x ^^^ s.getV y)) := rfl

/-! ## The statements -/

/-- Settles O32: both loads are one write of V[X]. -/
theorem loadRegister : Obligations.LoadRegister := by
  intro x y nn s
  refine ⟨packXNN_toNat_hex 0x6#4 x nn, packXYN_8_toNat x y 0x0#4, ?_, ?_⟩
  · exact ⟨_, exec_ldVxByte x nn s, s.getV_setV_same x nn, s.setV_onlyRegs x nn⟩
  · exact ⟨_, exec_ldVxVy x y s, s.getV_setV_same x _, s.setV_onlyRegs x _⟩

/-- Settles O33: one write of V[X], whose value is the sum of two bytes. -/
theorem addImmediateNoFlag : Obligations.AddImmediateNoFlag := by
  intro x nn s
  have hsum : ((s.setV x (s.getV x + nn)).getV x).toNat = ((s.getV x).toNat + nn.toNat) % 256 := by
    rw [State.getV_setV_same, BitVec.toNat_add]
  exact ⟨packXNN_toNat_hex 0x7#4 x nn, _, exec_addVxByte x nn s, hsum, s.setV_onlyRegs x _⟩

/-- Settles O34: each is one write of V[X], whose bits are those of the operation on bytes. -/
theorem logicIsBitwise : Obligations.LogicIsBitwise := by
  intro x y s
  refine ⟨packXYN_8_toNat x y 0x1#4, packXYN_8_toNat x y 0x2#4, packXYN_8_toNat x y 0x3#4, ?_, ?_, ?_⟩
  · exact ⟨_, exec_orVxVy x y s, s.setV_onlyRegs x _, fun k => by
      rw [State.getV_setV_same, BitVec.getLsbD_or]⟩
  · exact ⟨_, exec_andVxVy x y s, s.setV_onlyRegs x _, fun k => by
      rw [State.getV_setV_same, BitVec.getLsbD_and]⟩
  · exact ⟨_, exec_xorVxVy x y s, s.setV_onlyRegs x _, fun k => by
      rw [State.getV_setV_same, BitVec.getLsbD_xor]⟩

end Sys2Proof.Machine
end

section
/-!
SUPPORT. Proofs for the index statements (43_index_memory.md).
-/

namespace Sys2Proof.Machine

/-! ## LD I,addr (R130) -/

theorem encode_ldIAddr_toNat (nnn : Addr) : (encode (.ldIAddr nnn)).toNat = 0xA000 + nnn.toNat :=
  packNNN_toNat 0xA#4 nnn

theorem exec_ldIAddr (nnn : Addr) (s : State) : exec (.ldIAddr nnn) s = .next (s.setI (addrOperand nnn)) := rfl

/-- A write of I changes nothing else (R13). -/
theorem State.setI_onlyIndex (s : State) (w : Word) : OnlyIndex [] s (s.setI w) :=
  ⟨fun _ _ => s.setI_getV w _, fun _ _ => s.setI_read w _, rfl⟩

/-- Settles O39: the load is one write of I, whose value is the zero-extended operand. -/
theorem loadIndexAddress : Obligations.LoadIndexAddress := by
  intro nnn s
  have hvalue : (s.setI (addrOperand nnn)).i.toNat = nnn.toNat := by
    rw [State.setI_i, addrOperand_toNat]
  exact ⟨encode_ldIAddr_toNat nnn, _, exec_ldIAddr nnn s, hvalue, s.setI_onlyIndex _⟩

end Sys2Proof.Machine
end

section
/-!
SUPPORT. Proofs for the encoding statements (30_encoding.md): the decoder inverts the encoder, drops no bit, and follows the
opcode map and the table of invalid words.
-/

namespace Sys2Proof

open Sys2Proof.Laws

/-! ## Decoding after encoding (R61, R62) -/

/-- The decoder gives back every encoded instruction: CLS and RET are whole words, and in every other format the fields
read are the fields packed. -/
theorem decodeWord_encode (i : Instr) : decodeWord (encode i) = .ok i := by
  cases i with
  | cls | ret => rfl
  | _ => simp [encode, decodeWord, decodeOp8, decodeOpE, decodeOpF]

theorem decodeBytes_encodeBytes (i : Instr) (rest : List Byte) :
    decodeBytes (encodeBytes i ++ rest) = .ok (i, rest) := by
  simp [encodeBytes, decodeBytes, decodeWord_encode]

/-- Settles O2: the fields of each format are those packed, and a word is its two bytes joined. -/
theorem decodeInvertsEncode : Obligations.DecodeInvertsEncode :=
  fun i rest => ⟨decodeWord_encode i, decodeBytes_encodeBytes i rest⟩

/-! ## What the decoder can answer (R64, R70) -/

/-- The words of a group, by value: the rows of R70's table. -/
def InvalidClass.Contains (n : Nat) : InvalidClass → Prop
  | .op0 => n < 0x1000 ∧ n ≠ 0x00E0 ∧ n ≠ 0x00EE
  | .op5 => n / 0x1000 = 0x5 ∧ n % 0x10 ≠ 0
  | .op8 => n / 0x1000 = 0x8 ∧ n % 0x10 ∈ [0x8, 0x9, 0xA, 0xB, 0xC, 0xD, 0xF]
  | .op9 => n / 0x1000 = 0x9 ∧ n % 0x10 ≠ 0
  | .opE => n / 0x1000 = 0xE ∧ n % 0x100 ∉ [0x9E, 0xA1]
  | .opF => n / 0x1000 = 0xF ∧ n % 0x100 ∉ [0x07, 0x0A, 0x15, 0x18, 0x1E, 0x29, 0x33, 0x55, 0x65]

/-- Everything the decoder can answer for a word: an instruction whose word it is, or a group that contains it. -/
inductive Decoded (w : Word) : Except DecodeError Instr → Prop
  | ok (i : Instr) (h : encode i = w) : Decoded w (.ok i)
  | invalid (g : InvalidClass) (h : g.Contains w.toNat) : Decoded w (.error (.invalid g w))

section
variable {w : Word} {op : Nibble} (hop : (opField w).toNat = op.toNat)
include hop

theorem packNNN_of_op : packNNN op (nnnField w) = w := by
  rw [← BitVec.eq_of_toNat_eq hop, packNNN_fields]

theorem packXNN_of_op : packXNN op (xField w) (nnField w) = w := by
  rw [← BitVec.eq_of_toNat_eq hop, packXNN_fields]

theorem packXYN_of_op : packXYN op (xField w) (yField w) (nField w) = w := by
  rw [← BitVec.eq_of_toNat_eq hop, packXYN_fields]

theorem packXNN_of_op_nn {nn : Byte} (hnn : nnField w = nn) : packXNN op (xField w) nn = w := by
  rw [← hnn, packXNN_of_op hop]

theorem packXYN_of_op_n {n : Nibble} (hn : (nField w).toNat = n.toNat) : packXYN op (xField w) (yField w) n = w := by
  rw [← BitVec.eq_of_toNat_eq hn, packXYN_of_op hop]

theorem div_of_op : w.toNat / 0x1000 = op.toNat := by rw [← hop, opField_toNat]

end

theorem nField_mod_ne_zero {w : Word} (hn : nField w ≠ 0x0#4) : w.toNat % 0x10 ≠ 0 := fun h =>
  hn (BitVec.eq_of_toNat_eq ((nField_toNat w).trans h))

theorem decodeOp0_decoded {w : Word} (hop : (opField w).toNat = (0x0#4).toNat) : Decoded w (decodeOp0 w) := by
  unfold decodeOp0
  split
  next h => exact .ok .cls h.symm
  split
  next h => exact .ok .ret h.symm
  next h1 h2 =>
    have := div_of_op hop
    refine .invalid .op0 ⟨?_, fun e => h1 (BitVec.eq_of_toNat_eq e), fun e => h2 (BitVec.eq_of_toNat_eq e)⟩
    simp at this; omega

theorem decodeOp8_decoded {w : Word} (hop : (opField w).toNat = (0x8#4).toNat) : Decoded w (decodeOp8 w) := by
  unfold decodeOp8
  split
  next hn => exact .ok (.ldVxVy _ _) (packXYN_of_op_n hop hn)
  next hn => exact .ok (.orVxVy _ _) (packXYN_of_op_n hop hn)
  next hn => exact .ok (.andVxVy _ _) (packXYN_of_op_n hop hn)
  next hn => exact .ok (.xorVxVy _ _) (packXYN_of_op_n hop hn)
  next hn => exact .ok (.addVxVy _ _) (packXYN_of_op_n hop hn)
  next hn => exact .ok (.subVxVy _ _) (packXYN_of_op_n hop hn)
  next hn => exact .ok (.shrVxVy _ _) (packXYN_of_op_n hop hn)
  next hn => exact .ok (.subnVxVy _ _) (packXYN_of_op_n hop hn)
  next hn => exact .ok (.shlVxVy _ _) (packXYN_of_op_n hop hn)
  next =>
    refine .invalid .op8 ⟨div_of_op hop, ?_⟩
    simp only [nField_toNat, imp_false] at *
    simp only [List.mem_cons, List.not_mem_nil, or_false]
    omega

theorem decodeOpE_decoded {w : Word} (hop : (opField w).toNat = (0xE#4).toNat) : Decoded w (decodeOpE w) := by
  unfold decodeOpE
  split
  next h => exact .ok (.skpVx _) (packXNN_of_op_nn hop h)
  split
  next h => exact .ok (.sknpVx _) (packXNN_of_op_nn hop h)
  next =>
    refine .invalid .opE ⟨div_of_op hop, ?_⟩
    simp only [← BitVec.toNat_inj, nnField_toNat] at *
    simpa using ⟨‹_›, ‹_›⟩

theorem decodeOpF_decoded {w : Word} (hop : (opField w).toNat = (0xF#4).toNat) : Decoded w (decodeOpF w) := by
  unfold decodeOpF
  split
  next h => exact .ok (.ldVxDt _) (packXNN_of_op_nn hop h)
  split
  next h => exact .ok (.ldVxK _) (packXNN_of_op_nn hop h)
  split
  next h => exact .ok (.ldDtVx _) (packXNN_of_op_nn hop h)
  split
  next h => exact .ok (.ldStVx _) (packXNN_of_op_nn hop h)
  split
  next h => exact .ok (.addIVx _) (packXNN_of_op_nn hop h)
  split
  next h => exact .ok (.ldFVx _) (packXNN_of_op_nn hop h)
  split
  next h => exact .ok (.ldBVx _) (packXNN_of_op_nn hop h)
  split
  next h => exact .ok (.ldMemVx _) (packXNN_of_op_nn hop h)
  split
  next h => exact .ok (.ldVxMem _) (packXNN_of_op_nn hop h)
  next =>
    refine .invalid .opF ⟨div_of_op hop, ?_⟩
    simp only [← BitVec.toNat_inj, nnField_toNat] at *
    simp_all

/-- The decoder answers an instruction whose word it was given, or the group of R70 that contains the word: by OP. -/
theorem decodeWord_decoded (w : Word) : Decoded w (decodeWord w) := by
  unfold decodeWord
  split
  next hop => exact decodeOp0_decoded hop
  next hop => exact .ok (.jpAddr _) (packNNN_of_op hop)
  next hop => exact .ok (.callAddr _) (packNNN_of_op hop)
  next hop => exact .ok (.seVxByte _ _) (packXNN_of_op hop)
  next hop => exact .ok (.sneVxByte _ _) (packXNN_of_op hop)
  next hop =>
    split
    next hn => exact .ok (.seVxVy _ _) (packXYN_of_op_n hop (congrArg _ hn))
    next hn => exact .invalid .op5 ⟨div_of_op (op := 0x5#4) hop, nField_mod_ne_zero hn⟩
  next hop => exact .ok (.ldVxByte _ _) (packXNN_of_op hop)
  next hop => exact .ok (.addVxByte _ _) (packXNN_of_op hop)
  next hop => exact decodeOp8_decoded hop
  next hop =>
    split
    next hn => exact .ok (.sneVxVy _ _) (packXYN_of_op_n hop (congrArg _ hn))
    next hn => exact .invalid .op9 ⟨div_of_op (op := 0x9#4) hop, nField_mod_ne_zero hn⟩
  next hop => exact .ok (.ldIAddr _) (packNNN_of_op hop)
  next hop => exact .ok (.jpV0Addr _) (packNNN_of_op hop)
  next hop => exact .ok (.rndVxByte _ _) (packXNN_of_op hop)
  next hop => exact .ok (.drwVxVyN _ _ _) (packXYN_of_op hop)
  next hop => exact decodeOpE_decoded hop
  next =>
    have := (opField w).isLt
    simp only [imp_false] at *
    exact decodeOpF_decoded (show (opField w).toNat = 15 by omega)

theorem encode_of_decodeWord {w : Word} {i : Instr} (h : decodeWord w = .ok i) : encode i = w := by
  have hd := decodeWord_decoded w
  rw [h] at hd
  cases hd with
  | ok _ he => exact he

theorem invalid_of_decodeWord {w : Word} {e : DecodeError} (h : decodeWord w = .error e) :
    ∃ g : InvalidClass, e = .invalid g w ∧ g.Contains w.toNat := by
  have hd := decodeWord_decoded w
  rw [h] at hd
  cases hd with
  | invalid g hg => exact ⟨g, rfl, hg⟩

/-- Settles O3: the decoder answers an instruction only for that instruction's word. -/
theorem encodeInvertsDecode : Obligations.EncodeInvertsDecode :=
  fun _ _ => encode_of_decodeWord

/-! ## The opcode map (R65) -/

/-- The row of every instruction is in the map and selects the instruction's word. -/
theorem ownRow : ∀ i : Instr, OwnRow.Statement i
  | .cls => OwnRow.cls
  | .ret => OwnRow.ret
  | .jpAddr _ => OwnRow.jpAddr _
  | .callAddr _ => OwnRow.callAddr _
  | .seVxByte _ _ => OwnRow.seVxByte _ _
  | .sneVxByte _ _ => OwnRow.sneVxByte _ _
  | .seVxVy _ _ => OwnRow.seVxVy _ _
  | .ldVxByte _ _ => OwnRow.ldVxByte _ _
  | .addVxByte _ _ => OwnRow.addVxByte _ _
  | .ldVxVy _ _ => OwnRow.ldVxVy _ _
  | .orVxVy _ _ => OwnRow.orVxVy _ _
  | .andVxVy _ _ => OwnRow.andVxVy _ _
  | .xorVxVy _ _ => OwnRow.xorVxVy _ _
  | .addVxVy _ _ => OwnRow.addVxVy _ _
  | .subVxVy _ _ => OwnRow.subVxVy _ _
  | .shrVxVy _ _ => OwnRow.shrVxVy _ _
  | .subnVxVy _ _ => OwnRow.subnVxVy _ _
  | .shlVxVy _ _ => OwnRow.shlVxVy _ _
  | .sneVxVy _ _ => OwnRow.sneVxVy _ _
  | .ldIAddr _ => OwnRow.ldIAddr _
  | .jpV0Addr _ => OwnRow.jpV0Addr _
  | .rndVxByte _ _ => OwnRow.rndVxByte _ _
  | .drwVxVyN _ _ _ => OwnRow.drwVxVyN _ _ _
  | .skpVx _ => OwnRow.skpVx _
  | .sknpVx _ => OwnRow.sknpVx _
  | .ldVxDt _ => OwnRow.ldVxDt _
  | .ldVxK _ => OwnRow.ldVxK _
  | .ldDtVx _ => OwnRow.ldDtVx _
  | .ldStVx _ => OwnRow.ldStVx _
  | .addIVx _ => OwnRow.addIVx _
  | .ldFVx _ => OwnRow.ldFVx _
  | .ldBVx _ => OwnRow.ldBVx _
  | .ldMemVx _ => OwnRow.ldMemVx _
  | .ldVxMem _ => OwnRow.ldVxMem _

theorem row_mem_opcodeMap (i : Instr) : i.row ∈ opcodeMap := by
  simpa [Instr.wellFormed] using (ownRow i).1

theorem row_selects_of_decodeWord {w : Word} {i : Instr} (h : decodeWord w = .ok i) : i.row.selects w = true := by
  rw [← encode_of_decodeWord h]
  exact (ownRow i).2

theorem legalWord_iff (w : Word) : legalWord w = true ↔ ∃ r ∈ opcodeMap, r.selects w = true := by
  simp [legalWord]

theorem legalWord_of_decodeWord {w : Word} {i : Instr} (h : decodeWord w = .ok i) : legalWord w = true :=
  (legalWord_iff w).mpr ⟨i.row, row_mem_opcodeMap i, row_selects_of_decodeWord h⟩

/-! ### Selection by value -/

theorem selects_op_iff (v w : Word) : Row.selects ⟨0xF000#16, v⟩ w = true ↔ w.toNat / 0x1000 * 0x1000 = v.toNat := by
  simp [Row.selects, and_mask_op, ← BitVec.toNat_inj, packNNN_toNat, opField_toNat]

theorem selects_op_n_iff (v w : Word) :
    Row.selects ⟨0xF00F#16, v⟩ w = true ↔ w.toNat / 0x1000 * 0x1000 + w.toNat % 0x10 = v.toNat := by
  simp [Row.selects, and_mask_op_n, ← BitVec.toNat_inj, packXYN_toNat, opField_toNat, nField_toNat]

theorem selects_op_nn_iff (v w : Word) :
    Row.selects ⟨0xF0FF#16, v⟩ w = true ↔ w.toNat / 0x1000 * 0x1000 + w.toNat % 0x100 = v.toNat := by
  simp [Row.selects, and_mask_op_nn, ← BitVec.toNat_inj, packXNN_toNat, opField_toNat, nnField_toNat]

theorem selects_all_iff (v w : Word) : Row.selects ⟨0xFFFF#16, v⟩ w = true ↔ w.toNat = v.toNat := by
  simp only [Row.selects, and_mask_all, beq_iff_eq, ← BitVec.toNat_inj]

/-- No row selects a word of one of R70's groups. -/
theorem not_legalWord_of_contains {w : Word} {g : InvalidClass} (h : g.Contains w.toNat) : legalWord w = false := by
  rw [Bool.eq_false_iff]
  intro hl
  simp only [legalWord, opcodeMap, opcodeMapWide, opcodeMapXY, opcodeMapX, List.any_append, List.any_cons, List.any_nil,
    Bool.or_eq_true, Bool.false_eq_true, or_false, selects_op_iff, selects_op_n_iff, selects_op_nn_iff, selects_all_iff,
    BitVec.toNat_ofNat] at hl
  cases g <;> simp [InvalidClass.Contains] at h <;> omega

/-- No two rows of the map agree where their masks overlap (R65): 34 rows, compared pairwise. -/
theorem opcodeMap_disjoint :
    ∀ r ∈ opcodeMap, ∀ r' ∈ opcodeMap, r.value &&& r'.mask = r'.value &&& r.mask → r = r' := by
  decide

/-- Two rows that select one word agree where their masks overlap. -/
theorem Row.overlap_of_selects {r r' : Row} {w : Word} (h : r.selects w = true) (h' : r'.selects w = true) :
    r.value &&& r'.mask = r'.value &&& r.mask := by
  simp only [Row.selects, beq_iff_eq] at h h'
  rw [← h, ← h', BitVec.and_assoc, BitVec.and_comm r.mask, BitVec.and_assoc]

/-- Settles O4: an instruction's own row selects its word, and a word without an instruction lies in a group of R70. -/
theorem decoderFollowsOpcodeMap : Obligations.DecoderFollowsOpcodeMap := by
  intro w
  have hdisjoint : ∀ r ∈ opcodeMap, ∀ r' ∈ opcodeMap, r.selects w = true → r'.selects w = true → r = r' :=
    fun r hr r' hr' h h' => opcodeMap_disjoint r hr r' hr' (Row.overlap_of_selects h h')
  refine ⟨fun i h => ⟨row_mem_opcodeMap i, row_selects_of_decodeWord h⟩, fun hlegal => ?_, fun hillegal => ?_,
    hdisjoint⟩
  · cases hd : decodeWord w with
    | ok i => exact ⟨i, rfl⟩
    | error e =>
      obtain ⟨g, -, hg⟩ := invalid_of_decodeWord hd
      exact absurd hlegal (by simp [not_legalWord_of_contains hg])
  · cases hd : decodeWord w with
    | ok i => exact absurd (legalWord_of_decodeWord hd) (by simp [hillegal])
    | error e => exact ⟨e, rfl⟩

/-! ## The invalid words (R70) -/

/-- OP of the words of a group. -/
def InvalidClass.op : InvalidClass → Nat
  | .op0 => 0x0
  | .op5 => 0x5
  | .op8 => 0x8
  | .op9 => 0x9
  | .opE => 0xE
  | .opF => 0xF

theorem InvalidClass.Contains.op_eq {n : Nat} {g : InvalidClass} (h : g.Contains n) : n / 0x1000 = g.op := by
  cases g with
  | op0 => exact Nat.div_eq_of_lt h.1
  | _ => exact h.1

theorem InvalidClass.op_injective {g g' : InvalidClass} (h : g.op = g'.op) : g = g' := by
  cases g <;> cases g' <;> simp [InvalidClass.op] at h ⊢

/-- The decoder reports a group exactly for the words of that group: the groups exclude each other by OP. -/
theorem decodeWord_invalid_iff (w : Word) (g : InvalidClass) :
    decodeWord w = .error (.invalid g w) ↔ g.Contains w.toNat := by
  constructor
  · intro h
    obtain ⟨g', he, hg'⟩ := invalid_of_decodeWord h
    cases he
    exact hg'
  · intro hg
    cases hd : decodeWord w with
    | ok i => exact absurd (legalWord_of_decodeWord hd) (by simp [not_legalWord_of_contains hg])
    | error e =>
      obtain ⟨g', rfl, hg'⟩ := invalid_of_decodeWord hd
      rw [InvalidClass.op_injective (hg'.op_eq.symm.trans hg.op_eq)]

/-- Settles O5: each clause is the decoder's report of one group. -/
theorem invalidWordGroups : Obligations.InvalidWordGroups := by
  intro w
  refine ⟨decodeWord_invalid_iff w .op0, decodeWord_invalid_iff w .op5, decodeWord_invalid_iff w .op8,
    decodeWord_invalid_iff w .op9, decodeWord_invalid_iff w .opE, decodeWord_invalid_iff w .opF, fun e h => ?_⟩
  obtain ⟨g, he, -⟩ := invalid_of_decodeWord h
  exact ⟨g, he⟩

/-! ## Words of the spec's vectors (95_test_vectors.md) -/

/-- Settles O1: each word is decoded by evaluation. -/
theorem specWordsDecode : Obligations.SpecWordsDecode :=
  ⟨rfl, rfl, rfl, rfl, rfl, rfl, rfl, rfl, rfl, rfl, rfl, rfl, rfl, rfl⟩

end Sys2Proof
end

section
/-!
SUPPORT. What an instruction can do, said once for all 34 (40_step_cycle.md R84): the whole-machine statements are read off
its cases.
-/

namespace Sys2Proof.Machine

/-! ## The addresses of a data access (R46) -/

/-- The effective addresses of n bytes from a on. -/
def blockAddrs (a n : Nat) : List Nat := (List.range n).map (fun k => (a + k) % 4096)

@[simp] theorem blockAddrs_length (a n : Nat) : (blockAddrs a n).length = n := by simp [blockAddrs]

theorem blockAddrs_lt {a n c : Nat} (h : c ∈ blockAddrs a n) : c < memSize := addrs_lt a n c h

theorem not_accessOk_iff (s : State) (n : Nat) :
    ¬ AccessOk s n ↔ n ≠ 0 ∧ 4096 < s.i.toNat + n ∧ s.cfg.addressWrap = false := by
  simp only [AccessOk, not_or, Bool.not_eq_true, Nat.not_le, ne_eq]

theorem accessFromI_of_ok {s : State} {n : Nat} (h : AccessOk s n) (act : List Nat → State) :
    accessFromI s n act = act (blockAddrs s.i.toNat n) := accessFromI_of_valid s n act h

theorem accessFromI_of_not_ok {s : State} {n : Nat} (h : ¬ AccessOk s n) (act : List Nat → State) :
    accessFromI s n act = s.raise .outOfBoundsAddress (max s.i.toNat 4096) := by
  obtain ⟨hn, hbeyond, hwrap⟩ := (not_accessOk_iff s n).mp h
  exact accessFromI_of_invalid s n act hn hbeyond hwrap

/-! ## The memory instructions, in range (R133 to R135, R141) -/

/-- The display and the collision flag after the sprite of DRW Vx,Vy,N. -/
def State.drawn (s : State) (x y n : Nibble) : BitVec 2048 × Bool :=
  drawRows (s.getV x).toNat (s.getV y).toNat 0 ((blockAddrs s.i.toNat n.toNat).map s.read) (s.disp, false)

section
variable {x y n : Nibble} {s : State}

theorem exec_drw_of_ok (h : AccessOk s n.toNat) : exec (.drwVxVyN x y n) s =
    .next ((s.setDisp (s.drawn x y n).1).setFlag (s.drawn x y n).2).markDirty :=
  congrArg _ (accessFromI_of_ok h _)

theorem exec_ldBVx_of_ok (h : AccessOk s 3) : exec (.ldBVx x) s =
    .next (s.writeAll (blockAddrs s.i.toNat 3) (bcdDigits (s.getV x))) :=
  congrArg _ (accessFromI_of_ok h _)

theorem exec_ldMemVx_of_ok (h : AccessOk s (x.toNat + 1)) : exec (.ldMemVx x) s =
    .next (bumpI (s.writeAll (blockAddrs s.i.toNat (x.toNat + 1)) (regBlock s x)) x) :=
  congrArg _ (accessFromI_of_ok h _)

theorem exec_ldVxMem_of_ok (h : AccessOk s (x.toNat + 1)) : exec (.ldVxMem x) s =
    .next (bumpI (s.loadRegs 0 ((blockAddrs s.i.toNat (x.toNat + 1)).map s.read)) x) :=
  congrArg _ (accessFromI_of_ok h _)

end

/-! ## RET, LD ST,Vx and RND (R100, R155, R122) -/

/-- The state after a RET with an entry on the stack. -/
def State.returned (s : State) (h : 0 < s.sp.val) : State :=
  { s with sp := ⟨s.sp.val - 1, by omega⟩, pc := s.stack[s.sp.val - 1]'(by omega) }

theorem exec_ret_of_pos {s : State} (h : 0 < s.sp.val) : exec .ret s = .next (s.returned h) := execRet_of_pos s h

theorem exec_ret_empty {s : State} (h : s.sp.val = 0) : exec .ret s = .next (s.raise .stackUnderflow s.pc.toNat) :=
  execRet_empty s h

/-- The level that LD ST,Vx reports: the new one, when it differs from the old one. -/
def State.soundReport (s : State) (x : Nibble) : Option Bool :=
  if decide (s.getV x ≠ 0#8) ≠ s.soundActive then some (decide (s.getV x ≠ 0#8)) else none

theorem exec_ldStVx (x : Nibble) (s : State) :
    exec (.ldStVx x) s = .next ((s.setSt (s.getV x)).reportSound (s.soundReport x)) := rfl

theorem State.soundReport_eq_some {s : State} {x : Nibble} {b : Bool} :
    s.soundReport x = some b ↔ decide (s.getV x ≠ 0#8) = b ∧ s.soundActive ≠ b := by
  unfold State.soundReport
  split
  next h =>
    simp only [Option.some.injEq]
    exact ⟨fun e => ⟨e, e ▸ h.symm⟩, fun e => e.1⟩
  next h =>
    simp only [reduceCtorEq, false_iff]
    rintro ⟨e, hne⟩
    exact hne (by rw [← e]; exact (not_not.mp h).symm)

/-! ## Classes of instructions with one rule -/

/-- The instructions that only write V[x] (R110 to R115, R152). -/
inductive WritesReg (x : Nibble) : Instr → Prop
  | ldVxByte (nn : Byte) : WritesReg x (.ldVxByte x nn)
  | addVxByte (nn : Byte) : WritesReg x (.addVxByte x nn)
  | ldVxVy (y : Nibble) : WritesReg x (.ldVxVy x y)
  | orVxVy (y : Nibble) : WritesReg x (.orVxVy x y)
  | andVxVy (y : Nibble) : WritesReg x (.andVxVy x y)
  | xorVxVy (y : Nibble) : WritesReg x (.xorVxVy x y)
  | ldVxDt : WritesReg x (.ldVxDt x)

/-- The instructions that write V[x], then VF (R116 to R121). -/
inductive WritesRegFlag (x : Nibble) : Instr → Prop
  | addVxVy (y : Nibble) : WritesRegFlag x (.addVxVy x y)
  | subVxVy (y : Nibble) : WritesRegFlag x (.subVxVy x y)
  | shrVxVy (y : Nibble) : WritesRegFlag x (.shrVxVy x y)
  | subnVxVy (y : Nibble) : WritesRegFlag x (.subnVxVy x y)
  | shlVxVy (y : Nibble) : WritesRegFlag x (.shlVxVy x y)

/-- The jumps and skips, which only write pc (R101, R103 to R107, R150, R151). -/
inductive SetsPc : Instr → Prop
  | jpAddr (nnn : Addr) : SetsPc (.jpAddr nnn)
  | jpV0Addr (nnn : Addr) : SetsPc (.jpV0Addr nnn)
  | seVxByte (x : Nibble) (nn : Byte) : SetsPc (.seVxByte x nn)
  | sneVxByte (x : Nibble) (nn : Byte) : SetsPc (.sneVxByte x nn)
  | seVxVy (x y : Nibble) : SetsPc (.seVxVy x y)
  | sneVxVy (x y : Nibble) : SetsPc (.sneVxVy x y)
  | skpVx (x : Nibble) : SetsPc (.skpVx x)
  | sknpVx (x : Nibble) : SetsPc (.sknpVx x)

/-- The instructions that write I and, ADD I,Vx under add_i_sets_vf apart, nothing else (R130 to R132). -/
inductive SetsI : Instr → Prop
  | ldIAddr (nnn : Addr) : SetsI (.ldIAddr nnn)
  | addIVx (x : Nibble) : SetsI (.addIVx x)
  | ldFVx (x : Nibble) : SetsI (.ldFVx x)

/-- The causes of a fatal error of an instruction, with the kind and the info it raises (R161 to R163). -/
inductive Raises (s : State) : Instr → FatalError → Nat → Prop
  | overflow (nnn : Addr) (h : s.sp.val = 16) : Raises s (.callAddr nnn) .stackOverflow s.pc.toNat
  | underflow (h : s.sp.val = 0) : Raises s .ret .stackUnderflow s.pc.toNat
  | bcd (x : Nibble) (h : ¬ AccessOk s 3) : Raises s (.ldBVx x) .outOfBoundsAddress (max s.i.toNat 4096)
  | store (x : Nibble) (h : ¬ AccessOk s (x.toNat + 1)) :
      Raises s (.ldMemVx x) .outOfBoundsAddress (max s.i.toNat 4096)
  | load (x : Nibble) (h : ¬ AccessOk s (x.toNat + 1)) :
      Raises s (.ldVxMem x) .outOfBoundsAddress (max s.i.toNat 4096)
  | draw (x y n : Nibble) (h : ¬ AccessOk s n.toNat) :
      Raises s (.drwVxVyN x y n) .outOfBoundsAddress (max s.i.toNat 4096)

theorem exec_of_raises {s : State} {i : Instr} {k : FatalError} {info : Nat} (h : Raises s i k info) :
    exec i s = .next (s.raise k info) := by
  cases h with
  | overflow nnn h => exact exec_callAddr_full nnn s h
  | underflow h => exact exec_ret_empty h
  | bcd x h => exact congrArg _ (accessFromI_of_not_ok h _)
  | store x h => exact congrArg _ (accessFromI_of_not_ok h _)
  | load x h => exact congrArg _ (accessFromI_of_not_ok h _)
  | draw x y n h => exact congrArg _ (accessFromI_of_not_ok h _)

/-! ## What an instruction can do -/

/-- Everything an instruction can do to the state it is given, with the values it writes left open where no whole-machine
rule speaks of them. -/
inductive Acts (s : State) : Instr → State → Prop
  | cls : Acts s .cls (s.setDisp 0#2048).markDirty
  | draw (x y n : Nibble) (d : BitVec 2048) (f : Bool) (h : AccessOk s n.toNat) :
      Acts s (.drwVxVyN x y n) ((s.setDisp d).setFlag f).markDirty
  | ret (h : 0 < s.sp.val) : Acts s .ret (s.returned h)
  | call (nnn : Addr) (h : s.sp.val < 16) : Acts s (.callAddr nnn) (s.called nnn h)
  | pc {i : Instr} (w : Word) (hi : SetsPc i) : Acts s i (s.setPc w)
  | reg {i : Instr} {x : Nibble} (b : Byte) (hi : WritesReg x i) : Acts s i (s.setV x b)
  | regFlag {i : Instr} {x : Nibble} (b : Byte) (f : Bool) (hi : WritesRegFlag x i) : Acts s i (writeResultFlag s x b f)
  | random (x : Nibble) (nn b : Byte) : Acts s (.rndVxByte x nn) (s.draw.2.setV x b)
  | index {i : Instr} (w : Word) (hi : SetsI i) : Acts s i (s.setI w)
  | indexFlag (x : Nibble) (w : Word) (f : Bool) (h : s.cfg.addISetsVf = true) :
      Acts s (.addIVx x) ((s.setI w).setFlag f)
  | delay (x : Nibble) : Acts s (.ldDtVx x) (s.setDt (s.getV x))
  | sound (x : Nibble) : Acts s (.ldStVx x) ((s.setSt (s.getV x)).reportSound (s.soundReport x))
  | wait (x : Nibble) : Acts s (.ldVxK x) (s.enterWait x)
  | bcd (x : Nibble) (bs : List Byte) (h : AccessOk s 3) : Acts s (.ldBVx x) (s.writeAll (blockAddrs s.i.toNat 3) bs)
  | store (x : Nibble) (bs : List Byte) (h : AccessOk s (x.toNat + 1)) :
      Acts s (.ldMemVx x) (bumpI (s.writeAll (blockAddrs s.i.toNat (x.toNat + 1)) bs) x)
  | load (x : Nibble) (bs : List Byte) (hl : bs.length = x.toNat + 1) (h : AccessOk s (x.toNat + 1)) :
      Acts s (.ldVxMem x) (bumpI (s.loadRegs 0 bs) x)
  | raise {i : Instr} {k : FatalError} {info : Nat} (hi : Raises s i k info) : Acts s i (s.raise k info)

/-- A skip is a write of pc. -/
theorem skip_acts {s : State} {i : Instr} (c : Bool) (hi : SetsPc i) (he : exec i s = .next (s.skipIf c)) :
    ∃ t, exec i s = .next t ∧ Acts s i t :=
  ⟨_, he.trans (congrArg _ (s.skipIf_eq c)), .pc _ hi⟩

theorem raise_acts {s : State} {i : Instr} {k : FatalError} {info : Nat} (h : Raises s i k info) :
    ∃ t, exec i s = .next t ∧ Acts s i t :=
  ⟨_, exec_of_raises h, .raise h⟩

/-- Every instruction answers a next state, by one of the cases of `Acts`. -/
theorem exec_acts (i : Instr) (s : State) : ∃ t, exec i s = .next t ∧ Acts s i t := by
  cases i with
  | cls => exact ⟨_, rfl, .cls⟩
  | ret =>
    by_cases h : s.sp.val = 0
    · exact raise_acts (.underflow h)
    · exact ⟨_, exec_ret_of_pos (Nat.pos_of_ne_zero h), .ret _⟩
  | jpAddr nnn => exact ⟨_, rfl, .pc _ (.jpAddr nnn)⟩
  | callAddr nnn =>
    by_cases h : s.sp.val < 16
    · exact ⟨_, exec_callAddr_of_lt nnn s h, .call nnn h⟩
    · exact raise_acts (.overflow nnn (by have := s.sp.isLt; omega))
  | seVxByte x nn => exact skip_acts _ (.seVxByte x nn) rfl
  | sneVxByte x nn => exact skip_acts _ (.sneVxByte x nn) rfl
  | seVxVy x y => exact skip_acts _ (.seVxVy x y) rfl
  | ldVxByte x nn => exact ⟨_, rfl, .reg _ (.ldVxByte nn)⟩
  | addVxByte x nn => exact ⟨_, rfl, .reg _ (.addVxByte nn)⟩
  | ldVxVy x y => exact ⟨_, rfl, .reg _ (.ldVxVy y)⟩
  | orVxVy x y => exact ⟨_, rfl, .reg _ (.orVxVy y)⟩
  | andVxVy x y => exact ⟨_, rfl, .reg _ (.andVxVy y)⟩
  | xorVxVy x y => exact ⟨_, rfl, .reg _ (.xorVxVy y)⟩
  | addVxVy x y => exact ⟨_, rfl, .regFlag _ _ (.addVxVy y)⟩
  | subVxVy x y => exact ⟨_, rfl, .regFlag _ _ (.subVxVy y)⟩
  | shrVxVy x y => exact ⟨_, rfl, .regFlag _ _ (.shrVxVy y)⟩
  | subnVxVy x y => exact ⟨_, rfl, .regFlag _ _ (.subnVxVy y)⟩
  | shlVxVy x y => exact ⟨_, rfl, .regFlag _ _ (.shlVxVy y)⟩
  | sneVxVy x y => exact skip_acts _ (.sneVxVy x y) rfl
  | ldIAddr nnn => exact ⟨_, rfl, .index _ (.ldIAddr nnn)⟩
  | jpV0Addr nnn => exact ⟨_, rfl, .pc _ (.jpV0Addr nnn)⟩
  | rndVxByte x nn => exact ⟨_, rfl, .random x nn _⟩
  | drwVxVyN x y n =>
    by_cases h : AccessOk s n.toNat
    · exact ⟨_, exec_drw_of_ok h, .draw x y n _ _ h⟩
    · exact raise_acts (.draw x y n h)
  | skpVx x => exact skip_acts _ (.skpVx x) rfl
  | sknpVx x => exact skip_acts _ (.sknpVx x) rfl
  | ldVxDt x => exact ⟨_, rfl, .reg _ .ldVxDt⟩
  | ldVxK x => exact ⟨_, rfl, .wait x⟩
  | ldDtVx x => exact ⟨_, rfl, .delay x⟩
  | ldStVx x => exact ⟨_, exec_ldStVx x s, .sound x⟩
  | addIVx x =>
    refine ⟨_, rfl, ?_⟩
    split
    next h => exact .indexFlag x _ _ h
    next => exact .index _ (.addIVx x)
  | ldFVx x => exact ⟨_, rfl, .index _ (.ldFVx x)⟩
  | ldBVx x =>
    by_cases h : AccessOk s 3
    · exact ⟨_, exec_ldBVx_of_ok h, .bcd x _ h⟩
    · exact raise_acts (.bcd x h)
  | ldMemVx x =>
    by_cases h : AccessOk s (x.toNat + 1)
    · exact ⟨_, exec_ldMemVx_of_ok h, .store x _ h⟩
    · exact raise_acts (.store x h)
  | ldVxMem x =>
    by_cases h : AccessOk s (x.toNat + 1)
    · exact ⟨_, exec_ldVxMem_of_ok h, .load x _ (by simp) h⟩
    · exact raise_acts (.load x h)

theorem acts_of_exec {i : Instr} {s t : State} (h : exec i s = .next t) : Acts s i t := by
  obtain ⟨t', h', ha⟩ := exec_acts i s
  rw [h] at h'
  cases h'
  exact ha

end Sys2Proof.Machine
end

section
/-!
SUPPORT. Proofs for the whole-machine frames: which instruction may change which part of the state.
-/

namespace Sys2Proof.Machine

section
variable {s t : State} {i : Instr} (h : Acts s i t)
include h

/-! ## Timers, display, wait latches and key latch -/

theorem Acts.dt_written (hne : t.dt ≠ s.dt) : ∃ x, i = .ldDtVx x := by
  cases h with
  | delay x => exact ⟨x, rfl⟩
  | bcd | store | load => simp at hne
  | _ => exact absurd rfl hne

theorem Acts.st_written (hne : t.st ≠ s.st) : ∃ x, i = .ldStVx x := by
  cases h with
  | sound x => exact ⟨x, rfl⟩
  | bcd | store | load => simp at hne
  | _ => exact absurd rfl hne

theorem Acts.disp_written (hne : t.disp ≠ s.disp) : i = .cls ∨ ∃ x y n, i = .drwVxVyN x y n := by
  cases h with
  | cls => exact .inl rfl
  | draw x y n => exact .inr ⟨x, y, n, rfl⟩
  | bcd | store | load => simp at hne
  | _ => exact absurd rfl hne

theorem Acts.wait_written (hne : t.waitReg ≠ s.waitReg ∨ t.keyEvent ≠ s.keyEvent) : ∃ x, i = .ldVxK x := by
  cases h with
  | wait x => exact ⟨x, rfl⟩
  | bcd | store | load => simp at hne
  | _ => exact hne.elim (absurd rfl) (absurd rfl)

theorem Acts.keys_eq : t.keys = s.keys := by
  cases h with
  | bcd | store | load => simp
  | _ => rfl

theorem Acts.cfg_eq : t.cfg = s.cfg := by
  cases h with
  | bcd | store | load => simp
  | _ => rfl

/-! ## Memory and the return stack -/

theorem Acts.read_written (hne : ∃ a, t.read a ≠ s.read a) : (∃ x, i = .ldBVx x) ∨ ∃ x, i = .ldMemVx x := by
  obtain ⟨a, hne⟩ := hne
  cases h with
  | bcd x => exact .inl ⟨x, rfl⟩
  | store x => exact .inr ⟨x, rfl⟩
  | load => simp at hne
  | _ => exact absurd rfl hne

theorem Acts.stack_written (hne : t.sp ≠ s.sp ∨ t.stack ≠ s.stack) : i = .ret ∨ ∃ nnn, i = .callAddr nnn := by
  cases h with
  | ret => exact .inl rfl
  | call nnn => exact .inr ⟨nnn, rfl⟩
  | bcd | store | load => simp at hne
  | _ => exact hne.elim (absurd rfl) (absurd rfl)

/-! ## pc and I -/

theorem Acts.pc_written (hne : t.pc ≠ s.pc) : i = .ret ∨ (∃ nnn, i = .callAddr nnn) ∨ SetsPc i := by
  cases h with
  | ret => exact .inl rfl
  | call nnn => exact .inr (.inl ⟨nnn, rfl⟩)
  | pc w hi => exact .inr (.inr hi)
  | bcd | store | load => simp at hne
  | _ => exact absurd rfl hne

theorem Acts.i_written (hne : t.i ≠ s.i) :
    SetsI i ∨ (s.cfg.loadStoreIncrementsI = true ∧ ∃ x, i = .ldMemVx x ∨ i = .ldVxMem x) := by
  cases h with
  | index w hi => exact .inl hi
  | indexFlag x => exact .inl (.addIVx x)
  | bcd => simp at hne
  | store x =>
    simp only [bumpI_eq, State.setI_i, State.writeAll_cfg, State.writeAll_i, ne_eq, ite_eq_right_iff, not_forall] at hne
    exact .inr ⟨hne.1, x, .inl rfl⟩
  | load x =>
    simp only [bumpI_eq, State.setI_i, State.loadRegs_cfg, State.loadRegs_i, ne_eq, ite_eq_right_iff, not_forall] at hne
    exact .inr ⟨hne.1, x, .inr rfl⟩
  | _ => exact absurd rfl hne

/-! ## VF -/

/-- Which instruction may change VF: by class, a destination being VF where the class only writes its destination. -/
theorem Acts.vf_written (hne : t.getV 0xF#4 ≠ s.getV 0xF#4) :
    (∃ x, WritesRegFlag x i) ∨ (∃ x y n, i = .drwVxVyN x y n) ∨
      (s.cfg.addISetsVf = true ∧ ∃ x, i = .addIVx x) ∨ WritesReg 0xF#4 i ∨
      (∃ nn, i = .rndVxByte 0xF#4 nn) ∨ i = .ldVxMem 0xF#4 := by
  have hdest : ∀ {u : State} {x : Nibble} {b : Byte}, (u.setV x b).getV 0xF#4 ≠ u.getV 0xF#4 → x = 0xF#4 :=
    fun {u x b} hw => by_contra fun hx => hw (u.getV_setV_other b (Ne.symm hx))
  cases h with
  | regFlag _ _ hi => exact .inl ⟨_, hi⟩
  | draw x y n => exact .inr (.inl ⟨x, y, n, rfl⟩)
  | indexFlag x _ _ hflag => exact .inr (.inr (.inl ⟨hflag, x, rfl⟩))
  | reg _ hi => exact .inr (.inr (.inr (.inl (hdest hne ▸ hi))))
  | random x nn => exact .inr (.inr (.inr (.inr (.inl ⟨nn, by rw [hdest (u := s.draw.2) hne]⟩))))
  | load x bs hl =>
    have hx : x.toNat = 15 := by
      by_contra hx
      have := x.isLt
      rw [bumpI_getV, State.getV_loadRegs _ _ _ (by omega), dif_neg (by simp; omega)] at hne
      exact hne rfl
    exact .inr (.inr (.inr (.inr (.inr (by rw [BitVec.eq_of_toNat_eq (y := 0xF#4) hx])))))
  | bcd | store => simp at hne
  | _ => exact absurd rfl hne

end

/-- Settles O20: a device that differs afterwards singles out its case of `Acts`. -/
theorem devicesWrittenOnlyByTheirInstructions : Obligations.DevicesWrittenOnlyByTheirInstructions := by
  intro i s
  obtain ⟨t, ht, ha⟩ := exec_acts i s
  exact ⟨t, ht, ha.dt_written, ha.st_written, ha.disp_written, ha.wait_written, ha.keys_eq⟩

/-- Settles O21: only the stores change a byte, only CALL and RET the stack. -/
theorem memoryAndStackWrittenOnlyByTheirInstructions : Obligations.MemoryAndStackWrittenOnlyByTheirInstructions := by
  intro i s
  obtain ⟨t, ht, ha⟩ := exec_acts i s
  exact ⟨t, ht, ha.read_written, ha.stack_written⟩

/-- Settles O22: the class of an instruction that changes VF, spelled out. -/
theorem flagWrittenOnlyByFlagInstructions : Obligations.FlagWrittenOnlyByFlagInstructions := by
  intro i s
  obtain ⟨t, ht, ha⟩ := exec_acts i s
  refine ⟨t, ht, fun hne => ?_⟩
  obtain ⟨x, hi⟩ | hdraw | haddI | hi | ⟨nn, hrnd⟩ | hload := ha.vf_written hne
  · left
    cases hi with
    | addVxVy y | subVxVy y | shrVxVy y | subnVxVy y | shlVxVy y => exact ⟨x, y, by simp⟩
  · exact .inr (.inl hdraw)
  · exact .inr (.inr (.inl haddI))
  · cases hi with
    | ldVxByte nn | addVxByte nn => exact .inr (.inr (.inr (.inl ⟨nn, by simp⟩)))
    | ldVxVy y | orVxVy y | andVxVy y | xorVxVy y => exact .inr (.inr (.inr (.inr (.inl ⟨y, by simp⟩))))
    | ldVxDt => exact .inr (.inr (.inr (.inr (.inr (.inl rfl)))))
  · exact .inr (.inr (.inr (.inl ⟨nn, .inr (.inr hrnd)⟩)))
  · exact .inr (.inr (.inr (.inr (.inr (.inr hload)))))

/-- Settles O23: the class of an instruction that changes pc, or I, spelled out. -/
theorem pcAndIndexWrittenOnlyByTheirInstructions : Obligations.PcAndIndexWrittenOnlyByTheirInstructions := by
  intro i s
  obtain ⟨t, ht, ha⟩ := exec_acts i s
  refine ⟨t, ht, fun hne => ?_, fun hne => ?_⟩
  · obtain hret | ⟨nnn, hcall⟩ | hi := ha.pc_written hne
    · exact .inl hret
    · exact .inr (.inl ⟨nnn, .inr (.inl hcall)⟩)
    · right
      cases hi with
      | jpAddr nnn | jpV0Addr nnn => exact .inl ⟨nnn, by simp⟩
      | seVxByte x nn | sneVxByte x nn => exact .inr (.inl ⟨x, nn, by simp⟩)
      | seVxVy x y | sneVxVy x y => exact .inr (.inr (.inl ⟨x, y, by simp⟩))
      | skpVx x | sknpVx x => exact .inr (.inr (.inr ⟨x, by simp⟩))
  · obtain hi | hblock := ha.i_written hne
    · cases hi with
      | ldIAddr nnn => exact .inl ⟨nnn, rfl⟩
      | addIVx x | ldFVx x => exact .inr (.inl ⟨x, by simp⟩)
    · exact .inr (.inr hblock)

/-! ## Fatal errors of an instruction -/

/-- What every instruction keeps that neither raises an error nor enters the key wait. -/
structure KeepsRun (s t : State) : Prop where
  runState : t.runState = s.runState
  errKind : t.errKind = s.errKind
  errInfo : t.errInfo = s.errInfo
  reported : t.effects.error = s.effects.error
  keyEvent : t.keyEvent = s.keyEvent
  memCanonical : Memory.wf s.cfg s.mem = true → Memory.wf t.cfg t.mem = true

/-- A block store inside the address space keeps memory canonical. -/
theorem State.writeAll_block_wf (s : State) (a n : Nat) (bs : List Byte) (hm : Memory.wf s.cfg s.mem = true) :
    Memory.wf s.cfg (s.writeAll (blockAddrs a n) bs).mem = true :=
  s.writeAll_wf _ bs hm fun _ => blockAddrs_lt

/-- An instruction raises an error for one of its causes, or enters the key wait, or keeps the run state. -/
theorem Acts.raises_or_waits_or_keeps {s t : State} {i : Instr} (h : Acts s i t) :
    (∃ k info, Raises s i k info ∧ t = s.raise k info) ∨ (∃ x, i = .ldVxK x ∧ t = s.enterWait x) ∨
      KeepsRun s t := by
  cases h with
  | raise hi => exact .inl ⟨_, _, hi, rfl⟩
  | wait x => exact .inr (.inl ⟨x, rfl, rfl⟩)
  | bcd x bs =>
    refine .inr (.inr ⟨by simp, by simp, by simp, by simp, by simp, fun hm => ?_⟩)
    simpa using s.writeAll_block_wf _ 3 bs hm
  | store x bs =>
    refine .inr (.inr ⟨by simp, by simp, by simp, by simp, by simp, fun hm => ?_⟩)
    simpa using s.writeAll_block_wf _ (x.toNat + 1) bs hm
  | load => exact .inr (.inr ⟨by simp, by simp, by simp, by simp, by simp, fun hm => by simpa using hm⟩)
  | _ => exact .inr (.inr ⟨rfl, rfl, rfl, rfl, rfl, id⟩)

theorem Acts.raises_of_error {s t : State} {i : Instr} (h : Acts s i t) (hs : s.runState ≠ .error)
    (ht : t.runState = .error) : ∃ k info, Raises s i k info ∧ t = s.raise k info := by
  obtain hraise | ⟨x, -, rfl⟩ | hkeeps := h.raises_or_waits_or_keeps
  · exact hraise
  · cases ht
  · exact absurd (hkeeps.runState.symm.trans ht) hs

/-- An instruction that raises leaves the core in Error with the kind it raised. -/
theorem error_of_raises {s t : State} {i : Instr} {k : FatalError} {info : Nat} (h : Raises s i k info)
    (ht : exec i s = .next t) : t.runState = .error := by
  rw [exec_of_raises h] at ht
  cases ht
  rfl

/-- Settles O25: the causes of `Raises` are the only ways into Error, and each one leads there. -/
theorem eachErrorHasItsCause : Obligations.EachErrorHasItsCause := by
  intro i s hs
  obtain ⟨t, ht, ha⟩ := exec_acts i s
  refine ⟨t, ht, fun herr => ?_, ?_⟩
  · obtain ⟨k, info, hi, rfl⟩ := ha.raises_of_error hs herr
    cases hi with
    | overflow nnn h => exact .inl ⟨rfl, h, nnn, rfl⟩
    | underflow h => exact .inr (.inl ⟨rfl, h, rfl⟩)
    | bcd x h => exact .inr (.inr ⟨rfl, .inl ⟨x, rfl, h⟩⟩)
    | store x h => exact .inr (.inr ⟨rfl, .inr (.inl ⟨x, .inl rfl, h⟩)⟩)
    | load x h => exact .inr (.inr ⟨rfl, .inr (.inl ⟨x, .inr rfl, h⟩)⟩)
    | draw x y n h => exact .inr (.inr ⟨rfl, .inr (.inr ⟨x, y, n, rfl, h⟩)⟩)
  · rintro (⟨-, h, nnn, rfl⟩ | ⟨-, h, rfl⟩ |
      ⟨-, ⟨x, rfl, h⟩ | ⟨x, rfl | rfl, h⟩ | ⟨x, y, n, rfl, h⟩⟩)
    · exact error_of_raises (.overflow nnn h) ht
    · exact error_of_raises (.underflow h) ht
    · exact error_of_raises (.bcd x h) ht
    · exact error_of_raises (.store x h) ht
    · exact error_of_raises (.load x h) ht
    · exact error_of_raises (.draw x y n h) ht

end Sys2Proof.Machine
end

section
/-!
SUPPORT. Proofs for the STEP statements (40_step_cycle.md R82 to R86): the fetch, what a STEP can do, said once, and what it
reports.
-/

namespace Sys2Proof.Machine

/-! ## The fetch (R83, R43) -/

theorem fetchWord_error {s : State} {bad : Nat} (h : fetchWord s = .error bad) :
    4095 ≤ s.pc.toNat ∧ s.cfg.addressWrap = false ∧ bad = max s.pc.toNat 4096 := by
  by_cases hvalid : s.pc.toNat + 1 ≤ 4095 ∨ s.cfg.addressWrap = true
  · rw [fetchWord_of_valid s hvalid] at h
    cases h
  · simp only [not_or, Bool.not_eq_true] at hvalid
    have hpc : 4095 ≤ s.pc.toNat := by omega
    rw [fetchWord_of_invalid s hpc hvalid.2] at h
    cases h
    exact ⟨hpc, hvalid.2, rfl⟩

/-- Settles O7: a word joined from two bytes is big-endian; at 0x0FFF only wrapping makes the second address valid. -/
theorem fetchIsBigEndian : Obligations.FetchIsBigEndian := by
  refine fun s => ⟨fun h => ⟨_, fetchWord_of_valid s h, joinBytes_toNat _ _⟩, fun hpc hwrap => ?_⟩
  rw [fetchWord_of_invalid s (by omega) hwrap, hpc]
  rfl

/-! ## STEP in each run state -/

section
variable {s : State}

theorem step_of_fetchError {bad : Nat} (hr : s.runState = .running) (hf : fetchWord s = .error bad) :
    step s = .next (fetchError bad s) := by simp [step, hr, hf]

theorem step_of_invalid {w : Word} {e : DecodeError} (hr : s.runState = .running) (hf : fetchWord s = .ok w)
    (hd : decodeWord w = .error e) : step s = .next (invalidStep w s) := by simp [step, hr, hf, hd]

theorem step_of_decoded {w : Word} {i : Instr} (hr : s.runState = .running) (hf : fetchWord s = .ok w)
    (hd : decodeWord w = .ok i) : step s = exec i (afterFetch s) := by simp [step, hr, hf, hd]

theorem step_of_waiting (hr : s.runState = .waitingForKey) : step s = .next (waitCheck s) := by simp [step, hr]

theorem step_of_idle (hr : s.runState = .paused ∨ s.runState = .quit) : step s = .next (idleStep s) := by
  obtain hr | hr := hr <;> simp [step, hr]

theorem step_of_error (hr : s.runState = .error) : step s = .next (errorStep s) := by simp [step, hr]

theorem waitCheck_of_key {k : Nibble} (hk : s.keyEvent = some k) :
    waitCheck s = ((s.clearEffects.setV s.waitReg (k.zeroExtend 8)).setKeyEvent none).setRunState .running := by
  simp [waitCheck, hk]

theorem waitCheck_of_none (hk : s.keyEvent = none) : waitCheck s = s.clearEffects := by simp [waitCheck, hk]

end

theorem afterFetch_pc_toNat (s : State) : (afterFetch s).pc.toNat = (s.pc.toNat + 2) % 65536 :=
  BitVec.toNat_add s.pc 2#16

/-- Settles O6: the definition of STEP in Running, and of the state an instruction is given. -/
theorem stepRunsDecodedInstruction : Obligations.StepRunsDecodedInstruction :=
  fun s _ _ hr hf hd => ⟨step_of_decoded hr hf hd, afterFetch_pc_toNat s, rfl⟩

/-- Settles O8: such a fetch fails, and raising its address changes nothing else. -/
theorem fetchBeyondMemoryStops : Obligations.FetchBeyondMemoryStops := by
  intro s hr hwrap hpc
  have hinfo : max s.pc.toNat 4096 < 2 ^ 17 := by have := s.pc.isLt; omega
  exact ⟨_, step_of_fetchError hr (fetchWord_of_invalid s hpc hwrap), rfl, s.clearEffects.raise_onlyRaise _ hinfo⟩

/-- Settles O9: an invalid word only advances pc and is reported. -/
theorem invalidOpcodeIsReportedNoop : Obligations.InvalidOpcodeIsReportedNoop :=
  fun s _ _ hr hf hd => ⟨_, step_of_invalid hr hf hd, hr, afterFetch_pc_toNat s, rfl, rfl, rfl, rfl, rfl⟩

/-- A key index written to a register keeps its value. -/
theorem keyByte_toNat (k : Nibble) : (k.zeroExtend 8).toNat = k.toNat := BitVec.toNat_setWidth_of_le (by decide)

/-- Settles O10: the wait check by whether a key is captured. -/
theorem waitCheckWritesTheKey : Obligations.WaitCheckWritesTheKey := by
  intro s hr
  refine ⟨fun k hk => ?_, fun hk => ?_⟩
  · have hstep := step_of_waiting hr
    rw [waitCheck_of_key hk] at hstep
    have hvalue : ((s.clearEffects.setV s.waitReg (k.zeroExtend 8)).getV s.waitReg).toNat = k.toNat := by
      rw [State.getV_setV_same, keyByte_toNat]
    exact ⟨_, hstep, hvalue, rfl, rfl, rfl, (s.setV_onlyRegs s.waitReg _).1, fun _ _ => rfl, rfl⟩
  · rw [step_of_waiting hr, waitCheck_of_none hk]
    rfl

/-- Settles O11: the definition of STEP in the three stopped states. -/
theorem stoppedStatesExecuteNothing : Obligations.StoppedStatesExecuteNothing :=
  fun _ => ⟨step_of_idle, step_of_error⟩

/-! ## What a STEP can do -/

/-- Everything a STEP can do: the six branches of R83 to R86. -/
inductive Steps (s : State) : State → Prop
  | fetchFails (bad : Nat) (hr : s.runState = .running) (hf : fetchWord s = .error bad) : Steps s (fetchError bad s)
  | invalid (w : Word) (e : DecodeError) (hr : s.runState = .running) (hf : fetchWord s = .ok w)
      (hd : decodeWord w = .error e) : Steps s (invalidStep w s)
  | executes (w : Word) (i : Instr) (t : State) (hr : s.runState = .running) (hf : fetchWord s = .ok w)
      (hd : decodeWord w = .ok i) (he : exec i (afterFetch s) = .next t) : Steps s t
  | waits (hr : s.runState = .waitingForKey) : Steps s (waitCheck s)
  | idles (hr : s.runState = .paused ∨ s.runState = .quit) : Steps s (idleStep s)
  | stopped (hr : s.runState = .error) : Steps s (errorStep s)

/-- Every STEP answers a next state, by one of the cases of `Steps`. -/
theorem step_steps (s : State) : ∃ t, step s = .next t ∧ Steps s t := by
  cases hr : s.runState with
  | running =>
    cases hf : fetchWord s with
    | error bad => exact ⟨_, step_of_fetchError hr hf, .fetchFails bad hr hf⟩
    | ok w =>
      cases hd : decodeWord w with
      | error e => exact ⟨_, step_of_invalid hr hf hd, .invalid w e hr hf hd⟩
      | ok i =>
        obtain ⟨t, he, -⟩ := exec_acts i (afterFetch s)
        exact ⟨t, (step_of_decoded hr hf hd).trans he, .executes w i t hr hf hd he⟩
  | waitingForKey => exact ⟨_, step_of_waiting hr, .waits hr⟩
  | paused => exact ⟨_, step_of_idle (.inl hr), .idles (.inl hr)⟩
  | quit => exact ⟨_, step_of_idle (.inr hr), .idles (.inr hr)⟩
  | error => exact ⟨_, step_of_error hr, .stopped hr⟩

theorem steps_of_step {s t : State} (h : step s = .next t) : Steps s t := by
  obtain ⟨t', h', hs⟩ := step_steps s
  rw [h] at h'
  cases h'
  exact hs

/-- Settles O12: by the cases of an instruction and of a STEP. -/
theorem everyStepAnswers : Obligations.EveryStepAnswers :=
  ⟨fun i s => (exec_acts i s).imp fun _ h => h.1, fun s => (step_steps s).imp fun _ h => h.1⟩

theorem waitCheck_effects (s : State) : (waitCheck s).effects = noEffects := by
  unfold waitCheck
  split <;> rfl

theorem waitCheck_runState {s : State} (hr : s.runState = .waitingForKey) :
    (waitCheck s).runState = if s.keyEvent = none then .waitingForKey else .running := by
  cases hk : s.keyEvent with
  | none => simpa [waitCheck_of_none hk] using hr
  | some k => simp [waitCheck_of_key hk]

/-! ## Fatal errors of a STEP (R165, R166) -/

/-- A STEP in Running ends in Error by its fetch, or by an instruction that raises. -/
theorem Steps.raises_of_error {s t : State} (h : Steps s t) (hr : s.runState = .running) (ht : t.runState = .error) :
    (∃ bad, fetchWord s = .error bad ∧ t = fetchError bad s) ∨
    (∃ w i k info, fetchWord s = .ok w ∧ decodeWord w = .ok i ∧ t = (afterFetch s).raise k info) := by
  cases h with
  | fetchFails bad _ hf => exact .inl ⟨bad, hf, rfl⟩
  | invalid => exact absurd (hr.symm.trans ht) (by simp)
  | executes w i t _ hf hd he =>
    have hrunning : (afterFetch s).runState ≠ .error := fun he => absurd (hr.symm.trans he) (by simp)
    obtain ⟨k, info, -, rfl⟩ := (acts_of_exec he).raises_of_error hrunning ht
    exact .inr ⟨w, i, k, info, hf, hd, rfl⟩
  | waits h' | idles h' | stopped h' => simp [hr] at h'

/-- Settles O24: the fetch raises before pc is advanced, an instruction after. -/
theorem fatalErrorIsPrecise : Obligations.FatalErrorIsPrecise := by
  intro s t hr hstep ht
  obtain ⟨bad, hf, rfl⟩ | ⟨w, i, k, info, hf, hd, rfl⟩ := (steps_of_step hstep).raises_of_error hr ht
  · exact ⟨rfl, .inl ⟨⟨bad, hf⟩, rfl⟩⟩
  · exact ⟨rfl, .inr ⟨⟨w, i, hf, hd⟩, rfl⟩⟩

/-! ## What an instruction reports (R82) -/

section
variable {s t : State} {i : Instr} (h0 : s.effects = noEffects)
include h0

/-- CLS and DRW report display_dirty unless DRW raises; nothing else does. -/
theorem displayDirty_of_exec (hs : s.runState ≠ .error) (he : exec i s = .next t) :
    t.effects.displayDirty = true ↔ t.runState ≠ .error ∧ (i = .cls ∨ ∃ x y n, i = .drwVxVyN x y n) := by
  constructor
  · intro hdirty
    have hclear : s.effects.displayDirty ≠ true := by simp [h0, noEffects]
    cases acts_of_exec he with
    | cls => exact ⟨hs, .inl rfl⟩
    | draw x y n => exact ⟨hs, .inr ⟨x, y, n, rfl⟩⟩
    | bcd | store | load => exact absurd (by simpa using hdirty) hclear
    | _ => exact absurd hdirty hclear
  · rintro ⟨hne, rfl | ⟨x, y, n, rfl⟩⟩
    · cases he
      rfl
    · by_cases hok : AccessOk s n.toNat
      · rw [exec_drw_of_ok hok] at he
        cases he
        rfl
      · exact absurd (error_of_raises (.draw x y n hok) he) hne

/-- LD ST,Vx reports a changed level; nothing else does. -/
theorem soundChanged_of_exec (he : exec i s = .next t) (b : Bool) :
    t.effects.soundChanged = some b ↔ t.soundActive = b ∧ s.soundActive ≠ b ∧ ∃ x, i = .ldStVx x := by
  constructor
  · intro hsound
    have hclear : s.effects.soundChanged ≠ some b := by simp [h0, noEffects]
    cases acts_of_exec he with
    | sound x =>
      obtain ⟨hnew, hold⟩ := State.soundReport_eq_some.mp hsound
      exact ⟨hnew, hold, x, rfl⟩
    | bcd | store | load => exact absurd (by simpa using hsound) hclear
    | _ => exact absurd hsound hclear
  · rintro ⟨hnew, hold, x, rfl⟩
    rw [exec_ldStVx] at he
    cases he
    exact State.soundReport_eq_some.mpr ⟨hnew, hold⟩

theorem invalidOpcode_of_exec (he : exec i s = .next t) : t.effects.invalidOpcode = none := by
  have hclear : s.effects.invalidOpcode = none := by simp [h0, noEffects]
  cases acts_of_exec he with
  | bcd | store | load => simpa using hclear
  | _ => exact hclear

/-- An instruction reports an error exactly when it raises one. -/
theorem error_iff_reported_of_exec (hs : s.runState ≠ .error) (he : exec i s = .next t) :
    t.runState = .error ↔ t.effects.error ≠ none := by
  obtain ⟨k, info, -, rfl⟩ | ⟨x, -, rfl⟩ | hkeeps := (acts_of_exec he).raises_or_waits_or_keeps
  · simp
  · simp [h0, noEffects]
  · simp [hkeeps.runState, hkeeps.reported, hs, h0, noEffects]

end

/-- An instruction enters the key wait exactly when it is LD Vx,K. -/
theorem waiting_iff_of_exec {s t : State} {i : Instr} (hs : s.runState = .running) (he : exec i s = .next t) :
    t.runState = .waitingForKey ↔ ∃ x, i = .ldVxK x := by
  constructor
  · intro hwait
    obtain ⟨k, info, -, rfl⟩ | ⟨x, rfl, -⟩ | hkeeps := (acts_of_exec he).raises_or_waits_or_keeps
    · cases hwait
    · exact ⟨x, rfl⟩
    · simp [hkeeps.runState, hs] at hwait
  · rintro ⟨x, rfl⟩
    cases he
    rfl

/-! ## What a STEP reports -/

/-- A STEP that does not execute reports nothing but an error. -/
theorem Steps.effects_of_not_running {s t : State} (h : Steps s t) (hr : s.runState ≠ .running) :
    t.effects = { noEffects with error := t.effects.error } := by
  cases h with
  | fetchFails _ h' | invalid _ _ h' | executes _ _ _ h' => exact absurd h' hr
  | waits => simp [waitCheck_effects, noEffects]
  | idles | stopped => rfl

section
variable {s t : State} (h : Steps s t)
include h

theorem Steps.displayDirty_iff : t.effects.displayDirty = true ↔ s.runState = .running ∧ t.runState ≠ .error ∧
    ∃ w i, fetchWord s = .ok w ∧ decodeWord w = .ok i ∧ (i = .cls ∨ ∃ x y n, i = .drwVxVyN x y n) := by
  by_cases hr : s.runState = .running
  · cases h with
    | fetchFails bad _ hf => simp [hf, fetchError, noEffects]
    | invalid w e _ hf hd => simp [hf, hd, invalidStep, afterFetch, noEffects]
    | executes w i t _ hf hd he =>
      have hrun : (afterFetch s).runState ≠ .error := fun e => absurd (hr.symm.trans e) (by simp)
      simpa [hr, hf, hd] using displayDirty_of_exec rfl hrun he
    | waits h' | idles h' | stopped h' => simp [hr] at h'
  · rw [h.effects_of_not_running hr]
    simp [hr, noEffects]

theorem Steps.soundChanged_iff (b : Bool) : t.effects.soundChanged = some b ↔ s.runState = .running ∧
    t.soundActive = b ∧ s.soundActive ≠ b ∧ ∃ w x, fetchWord s = .ok w ∧ decodeWord w = .ok (.ldStVx x) := by
  by_cases hr : s.runState = .running
  · cases h with
    | fetchFails bad _ hf => simp [hf, fetchError, noEffects]
    | invalid w e _ hf hd => simp [hf, hd, invalidStep, afterFetch, noEffects]
    | executes w i t _ hf hd he =>
      have hlevel : (afterFetch s).soundActive = s.soundActive := rfl
      simpa [hr, hf, hd, hlevel] using soundChanged_of_exec (s := afterFetch s) rfl he b
    | waits h' | idles h' | stopped h' => simp [hr] at h'
  · rw [h.effects_of_not_running hr]
    simp [hr, noEffects]

theorem Steps.invalidOpcode_iff (w : Word) : t.effects.invalidOpcode = some w ↔
    s.runState = .running ∧ fetchWord s = .ok w ∧ ∃ e, decodeWord w = .error e := by
  by_cases hr : s.runState = .running
  · cases h with
    | fetchFails bad _ hf => simp [hf, fetchError, noEffects]
    | invalid w' e _ hf hd =>
      simp only [hr, hf, true_and, invalidStep, State.reportInvalid_effects, Option.some.injEq, Except.ok.injEq]
      exact ⟨fun e' => ⟨e', e, e' ▸ hd⟩, fun e' => e'.1⟩
    | executes w' i t _ hf hd he =>
      rw [invalidOpcode_of_exec (s := afterFetch s) rfl he, hf]
      simp only [reduceCtorEq, Except.ok.injEq, false_iff]
      rintro ⟨-, rfl, e, hd'⟩
      simp [hd] at hd'
    | waits h' | idles h' | stopped h' => simp [hr] at h'
  · rw [h.effects_of_not_running hr]
    simp [hr, noEffects]

end

end Sys2Proof.Machine
end

section
/-!
SUPPORT. Proofs for the invariant and the host's events (10_state.md R19 to R23, 40_step_cycle.md R80 to R94): every event
keeps the invariant, and what each event changes.
-/

namespace Sys2Proof.Machine

/-! ## The invariant with and without a latched error -/

/-- The invariant of a core that no fatal error has stopped: the latch is empty. -/
structure State.Unfailed (s : State) : Prop where
  memCanonical : Memory.wf s.cfg s.mem = true
  runState : s.runState ≠ .error
  errKind : s.errKind = none
  errInfo : s.errInfo = 0#17
  reported : s.effects.error = none
  eventOnlyWaiting : s.keyEvent ≠ none → s.runState = .waitingForKey ∨ s.runState = .quit

theorem State.Unfailed.inv {s : State} (h : s.Unfailed) : s.Inv where
  memCanonical := h.memCanonical
  errorLatched := by simp [h.errKind, h.runState]
  infoClear _ := h.errInfo
  errorReported := by simp [h.reported, h.errKind]
  eventOnlyWaiting := h.eventOnlyWaiting
  overflowFull := by simp [h.errKind]
  underflowEmpty := by simp [h.errKind]
  boundsAbove := by simp [h.errKind]

theorem State.Inv.unfailed {s : State} (h : s.Inv) (hr : s.runState ≠ .error) : s.Unfailed := by
  have hkind : s.errKind = none := by_contra fun hk => hr (h.errorLatched.mp hk)
  exact ⟨h.memCanonical, hr, hkind, h.infoClear hkind, by simp [h.errorReported, hkind], h.eventOnlyWaiting⟩

/-- No key is captured while the core runs. -/
theorem State.Unfailed.keyEvent_of_running {s : State} (h : s.Unfailed) (hr : s.runState = .running) :
    s.keyEvent = none := by
  by_contra hk
  simpa [hr] using h.eventOnlyWaiting hk

/-- An error is reported exactly while one is latched. -/
theorem State.Inv.reported_iff {s : State} (h : s.Inv) : s.effects.error ≠ none ↔ s.runState = .error := by
  rw [← h.errorLatched, h.errorReported, ne_eq, Option.map_eq_none_iff]

/-- What the invariant asks of an error as it is raised (R160 to R163). -/
def RaiseOk (s : State) (info : Nat) : FatalError → Prop
  | .stackOverflow => s.sp.val = 16 ∧ info = s.pc.toNat
  | .stackUnderflow => s.sp.val = 0 ∧ info = s.pc.toNat
  | .outOfBoundsAddress => 4095 < info ∧ info < 65536 ∧ s.cfg.addressWrap = false

theorem raise_inv {s : State} {k : FatalError} {info : Nat} (hm : Memory.wf s.cfg s.mem = true)
    (hev : s.keyEvent = none) (h : RaiseOk s info k) : (s.raise k info).Inv := by
  have hinfo : info < 65536 → (BitVec.ofNat 17 info).toNat = info := fun hlt => by
    rw [BitVec.toNat_ofNat]; omega
  have hpc := s.pc.isLt
  refine ⟨hm, by simp, by simp, rfl, by simp [hev], ?_, ?_, ?_⟩
  · rintro ⟨rfl⟩
    obtain ⟨hfull, rfl⟩ := h
    exact ⟨hfull, hinfo hpc⟩
  · rintro ⟨rfl⟩
    obtain ⟨hempty, rfl⟩ := h
    exact ⟨hempty, hinfo hpc⟩
  · rintro ⟨rfl⟩
    exact ⟨(hinfo h.2.1).symm ▸ h.1, h.2.2⟩

theorem Raises.raiseOk {s : State} {i : Instr} {k : FatalError} {info : Nat} (h : Raises s i k info) :
    RaiseOk s info k := by
  have hbounds : ∀ {n}, ¬ AccessOk s n → RaiseOk s (max s.i.toNat 4096) .outOfBoundsAddress := fun {n} hn => by
    have := s.i.isLt
    exact ⟨by omega, by omega, ((not_accessOk_iff s n).mp hn).2.2⟩
  cases h with
  | overflow nnn h => exact ⟨h, rfl⟩
  | underflow h => exact ⟨h, rfl⟩
  | bcd _ h | store _ h | load _ h | draw _ _ _ h => exact hbounds h

/-! ## Every event keeps the invariant -/

theorem exec_keeps_inv {s t : State} {i : Instr} (hu : s.Unfailed) (hr : s.runState = .running)
    (he : exec i s = .next t) : t.Inv := by
  have hev := hu.keyEvent_of_running hr
  obtain ⟨k, info, hraises, rfl⟩ | ⟨x, -, rfl⟩ | hkeeps := (acts_of_exec he).raises_or_waits_or_keeps
  · exact raise_inv hu.memCanonical hev hraises.raiseOk
  · exact State.Unfailed.inv ⟨hu.memCanonical, by simp, hu.errKind, hu.errInfo, hu.reported, by simp⟩
  · exact State.Unfailed.inv ⟨hkeeps.memCanonical hu.memCanonical, by simp [hkeeps.runState, hr],
      hkeeps.errKind.trans hu.errKind, hkeeps.errInfo.trans hu.errInfo, hkeeps.reported.trans hu.reported,
      by simp [hkeeps.keyEvent, hev]⟩

theorem State.Unfailed.clearEffects {s : State} (h : s.Unfailed) : s.clearEffects.Unfailed :=
  ⟨h.memCanonical, h.runState, h.errKind, h.errInfo, rfl, h.eventOnlyWaiting⟩

theorem State.Unfailed.afterFetch {s : State} (h : s.Unfailed) : (Machine.afterFetch s).Unfailed :=
  ⟨h.memCanonical, h.runState, h.errKind, h.errInfo, rfl, h.eventOnlyWaiting⟩

theorem waitCheck_unfailed {s : State} (h : s.Unfailed) : (waitCheck s).Unfailed := by
  cases hk : s.keyEvent with
  | none => rw [waitCheck_of_none hk]; exact h.clearEffects
  | some k =>
    rw [waitCheck_of_key hk]
    exact ⟨h.memCanonical, by simp, h.errKind, h.errInfo, rfl, by simp⟩

theorem Steps.keeps_inv {s t : State} (h : Steps s t) (hs : s.Inv) : t.Inv := by
  have hunfailed : ∀ {r}, s.runState = r → r ≠ .error → s.Unfailed := fun hr hne => hs.unfailed (hr ▸ hne)
  cases h with
  | fetchFails bad hr hf =>
    have hu := hunfailed hr (by simp)
    obtain ⟨-, hwrap, hbad⟩ := fetchWord_error hf
    have := s.pc.isLt
    exact raise_inv (s := s.clearEffects) hu.memCanonical (hu.keyEvent_of_running hr) ⟨by omega, by omega, hwrap⟩
  | invalid w e hr =>
    have hu := hunfailed hr (by simp)
    exact State.Unfailed.inv ⟨hu.memCanonical, hu.runState, hu.errKind, hu.errInfo, rfl, hu.eventOnlyWaiting⟩
  | executes w i t hr _ _ he => exact exec_keeps_inv (hunfailed hr (by simp)).afterFetch hr he
  | waits hr => exact (waitCheck_unfailed (hunfailed hr (by simp))).inv
  | idles hr => exact (hs.unfailed (by obtain hr | hr := hr <;> simp [hr])).clearEffects.inv
  | stopped =>
    exact ⟨hs.memCanonical, hs.errorLatched, hs.infoClear, rfl, hs.eventOnlyWaiting, hs.overflowFull,
      hs.underflowEmpty, hs.boundsAbove⟩

/-- Settles O14: by the cases of a STEP. -/
theorem stepKeepsInvariant : Obligations.StepKeepsInvariant :=
  fun _ _ hs hstep => (steps_of_step hstep).keeps_inv hs

/-- Settles O13: each report by the cases of a STEP, the error by the invariant of the state after it. -/
theorem stepEffectsReported : Obligations.StepEffectsReported := by
  intro s hs
  obtain ⟨t, ht, h⟩ := step_steps s
  exact ⟨t, ht, h.displayDirty_iff, h.soundChanged_iff, h.invalidOpcode_iff, (h.keeps_inv hs).reported_iff⟩

theorem loadedState_inv (cfg : Config) (n : Nat) {rom : List Byte} (h : romFits rom = true) :
    (loadedState cfg n rom).Inv :=
  State.Unfailed.inv ⟨Memory.ofRom_wf h, by simp [loadedState], rfl, rfl, rfl, by simp [loadedState]⟩

theorem reset_eq_loadedState : State.reset = loadedState defaultConfig 0 [] := rfl

/-- Settles O15: the reset state is the loaded state of the empty ROM. -/
theorem loadedStateMeetsInvariant : Obligations.LoadedStateMeetsInvariant :=
  ⟨reset_eq_loadedState ▸ loadedState_inv defaultConfig 0 rfl, fun cfg n _ h => loadedState_inv cfg n h⟩

theorem loadRom_of_fits {rom : List Byte} (h : romFits rom = true) (s : State) :
    loadRom rom s = loadedState s.cfg s.draws rom := by simp [loadRom, h]

theorem loadRom_of_not_fits {rom : List Byte} (h : romFits rom = false) (s : State) : loadRom rom s = s := by
  simp [loadRom, h]

/-- A change of run state that neither enters nor leaves Error, and leaves no captured key behind, keeps the invariant. -/
theorem setRunState_inv {s : State} {r : RunState} (hs : s.Inv) (hne : s.runState ≠ .error) (hr : r ≠ .error)
    (hev : s.keyEvent = none ∨ r = .quit) : (s.setRunState r).Inv := by
  have hu := hs.unfailed hne
  refine State.Unfailed.inv ⟨hu.memCanonical, hr, hu.errKind, hu.errInfo, hu.reported, fun hk => ?_⟩
  exact .inr (hev.resolve_left hk)

/-- A captured key is not left behind by PAUSE or RESUME: there is none outside the wait and Quit. -/
theorem State.Inv.keyEvent_eq_none {s : State} (hs : s.Inv) (hr : s.runState = .running ∨ s.runState = .paused) :
    s.keyEvent = none := by
  by_contra hk
  obtain h | h := hs.eventOnlyWaiting hk <;> simp [h] at hr

theorem pause_inv {s : State} (hs : s.Inv) : (pause s).Inv := by
  unfold pause
  split
  next hr => exact setRunState_inv hs (by simp [hr]) (by simp) (.inl (hs.keyEvent_eq_none (.inl hr)))
  next => exact hs

theorem resume_inv {s : State} (hs : s.Inv) : (resume s).Inv := by
  unfold resume
  split
  next hr => exact setRunState_inv hs (by simp [hr]) (by simp) (.inl (hs.keyEvent_eq_none (.inr hr)))
  next => exact hs

theorem quit_of_stopped {s : State} (hr : s.runState = .quit ∨ s.runState = .error) : quit s = s := by
  obtain hr | hr := hr <;> simp [quit, hr]

theorem quit_of_active {s : State} (hq : s.runState ≠ .quit) (he : s.runState ≠ .error) :
    quit s = s.setRunState .quit := by
  cases hr : s.runState with
  | running | paused | waitingForKey => simp [quit, hr]
  | quit => exact absurd hr hq
  | error => exact absurd hr he

theorem quit_inv {s : State} (hs : s.Inv) : (quit s).Inv := by
  by_cases hr : s.runState = .quit ∨ s.runState = .error
  · rwa [quit_of_stopped hr]
  · simp only [not_or] at hr
    rw [quit_of_active hr.1 hr.2]
    exact setRunState_inv hs hr.2 (by simp) (.inr rfl)

/-- The timers and the key latch are no part of the invariant, and a key may be captured during a wait. -/
theorem State.Inv.with_devices {s : State} (hs : s.Inv) (dt st : Byte) (keys : Vector Bool 16) {ev : Option Nibble}
    (hev : ev ≠ none → s.runState = .waitingForKey ∨ s.runState = .quit) :
    ({ s with dt := dt, st := st, keys := keys, keyEvent := ev } : State).Inv :=
  ⟨hs.memCanonical, hs.errorLatched, hs.infoClear, hs.errorReported, hev, hs.overflowFull, hs.underflowEmpty,
    hs.boundsAbove⟩

theorem tick_inv {s : State} (hs : s.Inv) : (tick s).Inv := hs.with_devices _ _ s.keys hs.eventOnlyWaiting

theorem setKey_inv {s : State} (k : Nibble) (d : Bool) (hs : s.Inv) : (setKey k d s).Inv := by
  unfold setKey
  split
  next hcapture =>
    obtain ⟨-, -, hwaiting, -⟩ := hcapture
    exact hs.with_devices s.dt s.st _ fun _ => .inl hwaiting
  next => exact hs.with_devices s.dt s.st _ hs.eventOnlyWaiting

theorem loadRom_inv {s : State} (rom : List Byte) (hs : s.Inv) : (loadRom rom s).Inv := by
  cases h : romFits rom with
  | true => rw [loadRom_of_fits h]; exact loadedState_inv _ _ h
  | false => rwa [loadRom_of_not_fits h]

theorem event_next (e : Event) (s : State) : ∃ t, event e s = .next t := by
  cases e with
  | step => exact (step_steps s).imp fun _ h => h.1
  | _ => exact ⟨_, rfl⟩

theorem event_keeps_inv {e : Event} {s t : State} (hs : s.Inv) (h : event e s = .next t) : t.Inv := by
  cases e with
  | step => exact (steps_of_step h).keeps_inv hs
  | load rom => cases h; exact loadRom_inv rom hs
  | tick => cases h; exact tick_inv hs
  | setKey k d => cases h; exact setKey_inv k d hs
  | pause => cases h; exact pause_inv hs
  | resume => cases h; exact resume_inv hs
  | quit => cases h; exact quit_inv hs

theorem runEvents_cons {e : Event} {s t : State} (h : event e s = .next t) (es : List Event) :
    runEvents (e :: es) s = runEvents es t := by simp [runEvents, h]

/-- What every event keeps, every run keeps, and every run answers a next state. -/
theorem runEvents_induction {P : State → Prop} (hP : ∀ e s t, P s → event e s = .next t → P t) (es : List Event)
    (s : State) (hs : P s) : ∃ t, runEvents es s = .next t ∧ P t := by
  induction es generalizing s with
  | nil => exact ⟨s, rfl, hs⟩
  | cons e es ih =>
    obtain ⟨u, hu⟩ := event_next e s
    rw [runEvents_cons hu]
    exact ih u (hP e s u hs hu)

/-- Settles O16: by induction on the run, each event keeping the invariant. -/
theorem everyRunKeepsInvariant : Obligations.EveryRunKeepsInvariant :=
  runEvents_induction fun _ _ _ => event_keeps_inv

/-! ## The configuration (R26) -/

theorem Steps.cfg_eq {s t : State} (h : Steps s t) : t.cfg = s.cfg := by
  cases h with
  | executes w i t _ _ _ he => exact (acts_of_exec he).cfg_eq
  | waits => unfold waitCheck; split <;> rfl
  | _ => rfl

theorem event_cfg {e : Event} {s t : State} (h : event e s = .next t) : t.cfg = s.cfg := by
  cases e with
  | step => exact (steps_of_step h).cfg_eq
  | load rom => cases h; unfold loadRom; split <;> rfl
  | tick => cases h; rfl
  | setKey k d => cases h; unfold setKey; split <;> rfl
  | pause => cases h; unfold pause; split <;> rfl
  | resume => cases h; unfold resume; split <;> rfl
  | quit => cases h; unfold quit; split <;> rfl

/-- Settles O17: by induction on the run, no event writing the configuration. -/
theorem configurationNeverChanges : Obligations.ConfigurationNeverChanges :=
  fun es s => runEvents_induction (P := fun t => t.cfg = s.cfg) (fun _ _ _ hs h => (event_cfg h).trans hs) es s rfl

/-! ## Leaving Error (R168) -/

theorem setKey_of_not_waiting {s : State} (k : Nibble) (d : Bool) (hr : s.runState ≠ .waitingForKey) :
    setKey k d s = s.setKeyLevel k d := by
  simp [setKey, hr]

/-- Settles O18: a LOAD by whether the ROM fits, every other event by its definition in Error. -/
theorem errorLeftOnlyByLoad : Obligations.ErrorLeftOnlyByLoad := by
  intro e s hr
  cases e with
  | load rom =>
    cases h : romFits rom with
    | true => exact ⟨_, congrArg Host.Outcome.next (loadRom_of_fits h s), .inl ⟨rom, rfl, h, rfl⟩⟩
    | false =>
      have hrom : ∀ r, Event.load rom = .load r → romFits r = false := fun _ he => by cases he; exact h
      exact ⟨s, congrArg Host.Outcome.next (loadRom_of_not_fits h s), .inr ⟨hrom, hr, rfl⟩⟩
  | step => exact ⟨_, step_of_error hr, .inr ⟨nofun, hr, rfl⟩⟩
  | tick => exact ⟨_, rfl, .inr ⟨nofun, hr, rfl⟩⟩
  | setKey k d =>
    exact ⟨_, congrArg Host.Outcome.next (setKey_of_not_waiting k d (by simp [hr])), .inr ⟨nofun, hr, rfl⟩⟩
  | pause => exact ⟨s, by simp [event, pause, hr], .inr ⟨nofun, hr, rfl⟩⟩
  | resume => exact ⟨s, by simp [event, resume, hr], .inr ⟨nofun, hr, rfl⟩⟩
  | quit => exact ⟨s, congrArg Host.Outcome.next (quit_of_stopped (.inr hr)), .inr ⟨nofun, hr, rfl⟩⟩

/-! ## The run state after every event (R87) -/

theorem setKey_runState (k : Nibble) (d : Bool) (s : State) : (setKey k d s).runState = s.runState := by
  unfold setKey
  split <;> rfl

/-- A STEP in Running: by what it fetched and decoded. -/
theorem Steps.runState_of_running {s t : State} (h : Steps s t) (hr : s.runState = .running) :
    (t.runState = .running ∨ t.runState = .waitingForKey ∨ t.runState = .error) ∧
    (t.runState = .waitingForKey ↔ ∃ w x, fetchWord s = .ok w ∧ decodeWord w = .ok (.ldVxK x)) ∧
    (t.runState = .error ↔ t.effects.error ≠ none) := by
  cases h with
  | fetchFails bad _ hf => simp [hf, fetchError]
  | invalid w e _ hf hd => simp [hf, hd, hr, invalidStep, afterFetch, noEffects]
  | executes w i t _ hf hd he =>
    have hrun : (afterFetch s).runState = .running := hr
    refine ⟨?_, by simpa [hf, hd] using waiting_iff_of_exec hrun he,
      error_iff_reported_of_exec rfl (by simp [hrun]) he⟩
    obtain ⟨k, info, -, rfl⟩ | ⟨x, -, rfl⟩ | hkeeps := (acts_of_exec he).raises_or_waits_or_keeps
    · exact .inr (.inr rfl)
    · exact .inr (.inl rfl)
    · exact .inl (hkeeps.runState.trans hrun)
  | waits h' | idles h' | stopped h' => simp [hr] at h'

/-- Settles O19: by the event, then by the run state it finds. -/
theorem runStateTransitionTable : Obligations.RunStateTransitionTable := by
  intro e s
  obtain ⟨t, ht⟩ := event_next e s
  refine ⟨t, ht, ?_⟩
  cases e with
  | load rom =>
    cases ht
    show (loadRom rom s).runState = if romFits rom then .running else s.runState
    unfold loadRom
    split <;> rfl
  | step =>
    cases hr : s.runState with
    | running => exact (steps_of_step ht).runState_of_running hr
    | waitingForKey =>
      cases (step_of_waiting hr).symm.trans ht
      exact waitCheck_runState hr
    | paused => cases (step_of_idle (.inl hr)).symm.trans ht; exact hr
    | quit => cases (step_of_idle (.inr hr)).symm.trans ht; exact hr
    | error => cases (step_of_error hr).symm.trans ht; exact hr
  | tick => cases ht; cases hr : s.runState <;> exact hr
  | setKey k d => cases ht; cases hr : s.runState <;> exact (setKey_runState k d s).trans hr
  | pause => cases ht; cases hr : s.runState <;> simp [pause, hr]
  | resume => cases ht; cases hr : s.runState <;> simp [resume, hr]
  | quit => cases ht; cases hr : s.runState <;> simp [quit, hr]

end Sys2Proof.Machine
end

section
/-!
SUPPORT. Proofs for the statements about single events (40_step_cycle.md R88 to R91, 60_exceptions.md R170, R171) and about
LOAD (70_reset_and_hazards.md).
-/

namespace Sys2Proof.Machine

/-! ## SET_KEY, PAUSE, RESUME, QUIT (R88 to R91) -/

theorem setKey_keys (k : Nibble) (d : Bool) (s : State) : (setKey k d s).keys = s.keys.set k.toNat d k.isLt := by
  unfold setKey
  split <;> rfl

theorem setKey_frame (k : Nibble) (d : Bool) (s : State) :
    setKey k d s = { s with keys := (setKey k d s).keys, keyEvent := (setKey k d s).keyEvent } := by
  unfold setKey
  split <;> rfl

theorem State.getElem?_keys (s : State) (k : Nibble) : s.keys[k.toNat]? = some (s.key k) :=
  Vector.getElem?_eq_getElem k.isLt

/-- SET_KEY captures a key-down transition during the wait when none is captured. -/
theorem setKey_keyEvent (k : Nibble) (d : Bool) (s : State) : (setKey k d s).keyEvent =
    if d = true ∧ s.keys[k.toNat]? = some false ∧ s.runState = .waitingForKey ∧ s.keyEvent = none
      then some k else s.keyEvent := by
  unfold setKey
  simp only [State.getElem?_keys, Option.some.injEq]
  split <;> rfl

theorem pause_frame (s : State) : pause s = { s with runState := (pause s).runState } := by
  unfold pause
  split <;> rfl

theorem resume_frame (s : State) : resume s = { s with runState := (resume s).runState } := by
  unfold resume
  split <;> rfl

theorem quit_frame (s : State) : quit s = { s with runState := (quit s).runState } := by
  unfold quit
  split <;> rfl

/-- Settles O58: what SET_KEY writes, and the frame of each other event. -/
theorem hostEventsTouchOnlyTheirState : Obligations.HostEventsTouchOnlyTheirState := by
  intro s k d
  refine ⟨⟨_, rfl, ?_, fun j hj => ?_, setKey_keyEvent k d s, setKey_frame k d s⟩, fun e he => ?_⟩
  · rw [setKey_keys, Vector.getElem?_set_self k.isLt]
  · rw [setKey_keys, Vector.getElem?_set_ne k.isLt hj.symm]
  · simp only [List.mem_cons, List.not_mem_nil, or_false] at he
    obtain rfl | rfl | rfl := he
    · exact ⟨_, rfl, pause_frame s⟩
    · exact ⟨_, rfl, resume_frame s⟩
    · exact ⟨_, rfl, quit_frame s⟩

/-! ## The key wait (R85, R91, R153) -/

/-- A press of a key that was up is captured. -/
theorem setKey_of_press {s : State} {k : Nibble} (hr : s.runState = .waitingForKey) (hev : s.keyEvent = none)
    (hup : s.key k = false) : setKey k true s = (s.setKeyEvent (some k)).setKeyLevel k true := by
  simp [setKey, hr, hev, hup]

/-- A release, a report that a held key is down, and any report while a key is captured only write the key's level. -/
theorem setKey_of_no_press {s : State} {k : Nibble} {d : Bool} (h : d = false ∨ s.key k = true ∨ s.keyEvent ≠ none) :
    setKey k d s = s.setKeyLevel k d := by
  obtain h | h | h := h <;> simp [setKey, h]

/-- Without a captured key a STEP leaves the wait as it is. -/
theorem step_keeps_waiting {s : State} (hr : s.runState = .waitingForKey) (hev : s.keyEvent = none) (k : Nibble)
    (d : Bool) : ∃ t, step (s.setKeyLevel k d) = .next t ∧ t.runState = .waitingForKey ∧ KeepsRegs [] s t := by
  have hstep := step_of_waiting (s := s.setKeyLevel k d) hr
  rw [waitCheck_of_none (s := s.setKeyLevel k d) hev] at hstep
  exact ⟨_, hstep, hr, fun _ _ => rfl⟩

/-- Settles O55: by what SET_KEY captures, then the wait check of the STEP. -/
theorem keyWaitEndsByPress : Obligations.KeyWaitEndsByPress := by
  intro s k hr hev
  refine ⟨fun hup => ?_, fun hdown => ?_, ?_, fun hup j d => ?_⟩
  · rw [setKey_of_press hr hev hup]
    have hstep := step_of_waiting (s := (s.setKeyEvent (some k)).setKeyLevel k true) hr
    rw [waitCheck_of_key (k := k) rfl] at hstep
    exact ⟨_, hstep, rfl, State.getV_setV_same _ _ _, rfl⟩
  · rw [setKey_of_no_press (.inr (.inl hdown))]
    exact step_keeps_waiting hr hev k true
  · rw [setKey_of_no_press (.inl rfl)]
    exact step_keeps_waiting hr hev k false
  · rw [setKey_of_press hr hev hup, setKey_of_no_press (.inr (.inr (by simp)))]
    rfl

/-! ## TICK (R170, R171) -/

/-- A timer lowered by one unless it is 0: natural subtraction. -/
theorem lowered_toNat (b : Byte) : (if b = 0#8 then 0#8 else b - 1#8).toNat = b.toNat - 1 := by
  split
  next h => rw [h]; rfl
  next h =>
    have hpos : b.toNat ≠ 0 := fun h0 => h (BitVec.eq_of_toNat_eq h0)
    have hlt := b.isLt
    rw [BitVec.toNat_sub]
    simp only [BitVec.toNat_ofNat]
    omega

theorem tick_dt_toNat (s : State) : (tick s).dt.toNat = s.dt.toNat - 1 := lowered_toNat s.dt

theorem tick_st_toNat (s : State) : (tick s).st.toNat = s.st.toNat - 1 := lowered_toNat s.st

/-- Settles O56: each timer is lowered by one, clamped at 0. -/
theorem tickLowersTimers : Obligations.TickLowersTimers :=
  fun s => ⟨tick s, rfl, tick_dt_toNat s, tick_st_toNat s, fun _ _ => rfl, fun _ _ => rfl, rfl⟩

/-- k TICKs lower each timer by k, clamped at 0. -/
theorem runEvents_ticks (k : Nat) (s : State) : ∃ t, runEvents (List.replicate k .tick) s = .next t ∧
    t.st.toNat = s.st.toNat - k ∧ t.dt.toNat = s.dt.toNat - k := by
  induction k generalizing s with
  | zero => exact ⟨s, rfl, rfl, rfl⟩
  | succ k ih =>
    obtain ⟨t, ht, hst, hdt⟩ := ih (tick s)
    rw [tick_st_toNat] at hst
    rw [tick_dt_toNat] at hdt
    exact ⟨t, ht, by omega, by omega⟩

theorem State.soundActive_iff (s : State) : s.soundActive = true ↔ s.st.toNat ≠ 0 := by
  rw [State.soundActive, decide_eq_true_iff, ne_eq, ← BitVec.toNat_inj]
  rfl

/-- Settles O57: the sound timer after k TICKs, by induction on k, is 0 exactly when k has reached it. -/
theorem soundLastsAsManyTicks : Obligations.SoundLastsAsManyTicks := by
  intro s k
  obtain ⟨t, ht, hst, hdt⟩ := runEvents_ticks k s
  refine ⟨t, ht, hst, hdt, ?_⟩
  show t.soundActive = true ↔ k < s.st.toNat
  rw [State.soundActive_iff, hst]
  omega

/-! ## LOAD (R190 to R192) -/

theorem romFits_iff (rom : List Byte) : romFits rom = true ↔ rom.length ≤ 3584 := decide_eq_true_iff

theorem romFits_eq_false_iff (rom : List Byte) : romFits rom = false ↔ 3584 < rom.length := by
  rw [← Bool.not_eq_true, romFits_iff, Nat.not_le]

theorem loadResult_of_fits {rom : List Byte} (h : romFits rom = true) : loadResult rom = .success := by
  simp [loadResult, h]

theorem loadResult_of_not_fits {rom : List Byte} (h : romFits rom = false) :
    loadResult rom = .romTooLarge rom.length := by
  simp [loadResult, h]

/-- No font byte stands at 80 or above (R24, R41). -/
theorem initial_above_font (cfg : Config) {a : Nat} (h : 80 ≤ a) : Memory.initial cfg a = 0#8 :=
  dif_neg (Nat.not_lt.mpr h)

section
variable {cfg : Config} {n : Nat} {rom : List Byte} (h : romFits rom = true)

theorem loadedState_getV (x : Nibble) : (loadedState cfg n rom).getV x = 0#8 := Vector.getElem_replicate x.isLt

theorem loadedState_key (k : Nibble) : (loadedState cfg n rom).key k = false := Vector.getElem_replicate k.isLt

theorem loadedState_pixel (px py : Nat) : (loadedState cfg n rom).pixel px py = false := BitVec.getLsbD_zero

include h

theorem loadedState_read_font (g : Fin 16) (r : Fin 5) :
    (loadedState cfg n rom).read (5 * g.val + r.val) = (cfg.font[g.val])[r.val] := by
  have hlow : 5 * g.val + r.val < progBase := by unfold progBase; omega
  exact (Memory.read_ofRom_below h hlow).trans (fontByte_glyph cfg g r)

theorem loadedState_read_rom {j : Nat} (hj : j < rom.length) : (loadedState cfg n rom).read (0x200 + j) = rom[j] := by
  have hin : progBase ≤ 0x200 + j ∧ 0x200 + j < progBase + rom.length := by unfold progBase; omega
  have hindex : 0x200 + j - progBase = j := Nat.add_sub_cancel_left ..
  refine (Memory.read_ofRom h (0x200 + j)).trans ?_
  rw [dif_pos hin]
  simp only [hindex]

theorem loadedState_read_zero {a : Nat} (ha : 80 ≤ a) (hout : a < 0x200 ∨ 0x200 + rom.length ≤ a) :
    (loadedState cfg n rom).read a = 0#8 := by
  have hnot : ¬ (progBase ≤ a ∧ a < progBase + rom.length) := by unfold progBase; omega
  refine (Memory.read_ofRom h a).trans ?_
  rw [dif_neg hnot]
  exact initial_above_font cfg ha

end

/-- Settles O59: the loaded state field by field, its memory by the three ranges of addresses. -/
theorem loadGivesResetTable : Obligations.LoadGivesResetTable := by
  refine ⟨fun rom s hlen => ?_, fun rom s hlen => ?_, reset_eq_loadedState⟩
  · have h := (romFits_iff rom).mpr hlen
    refine ⟨_, congrArg Host.Outcome.next (loadRom_of_fits h s), loadResult_of_fits h, loadedState_getV, rfl, rfl, rfl,
      fun k hk => ?_, rfl, rfl, loadedState_pixel, loadedState_key, rfl, rfl, rfl, rfl, rfl, rfl,
      loadedState_read_font h, fun j hj => loadedState_read_rom h hj, fun a ha hout => loadedState_read_zero h ha hout⟩
    exact (Vector.getElem?_eq_getElem hk).trans (congrArg some (Vector.getElem_replicate hk))
  · have h := (romFits_eq_false_iff rom).mpr hlen
    exact ⟨congrArg Host.Outcome.next (loadRom_of_not_fits h s), loadResult_of_not_fits h⟩

/-- Settles O60: before the first LOAD, by the event. -/
theorem onlyLoadBeforeFirstLoad : Obligations.OnlyLoadBeforeFirstLoad := by
  intro cfg e
  refine ⟨?_, ?_, fun hne => ?_⟩
  · rintro rom rfl hlen
    simp [systemEvent, firstLoad, (romFits_iff rom).mpr hlen]
  · rintro rom rfl hlen
    simp [systemEvent, firstLoad, (romFits_eq_false_iff rom).mpr hlen]
  · cases e with
    | load rom => exact absurd rfl (hne rom)
    | _ => rfl

end Sys2Proof.Machine
end

section
/-!
SUPPORT. Proofs for the remaining statements about single instructions that access no memory (41_flow.md, 42_alu.md,
43_index_memory.md R131 and R132, 45_keypad_timers.md).
-/

namespace Sys2Proof.Machine

/-! ## Jumps (R101, R107) -/

@[simp] theorem byteToWord_toNat (b : Byte) : (byteToWord b).toNat = b.toNat :=
  BitVec.toNat_setWidth_of_le (by decide)

/-- The target of JP V0,addr fits 16 bits. -/
theorem jumpTarget_toNat (nnn : Addr) (b : Byte) : (addrOperand nnn + byteToWord b).toNat = nnn.toNat + b.toNat := by
  have := nnn.isLt
  have := b.isLt
  rw [BitVec.toNat_add, addrOperand_toNat, byteToWord_toNat]
  omega

theorem exec_jpAddr (nnn : Addr) (s : State) : exec (.jpAddr nnn) s = .next (s.setPc (addrOperand nnn)) := rfl

theorem exec_jpV0Addr (nnn : Addr) (s : State) :
    exec (.jpV0Addr nnn) s = .next (s.setPc (addrOperand nnn + byteToWord (s.getV 0x0#4))) := rfl

/-- A write of pc changes nothing else (R12). -/
theorem State.setPc_onlyPc (s : State) (w : Word) : OnlyPc s (s.setPc w) := ⟨fun _ _ => rfl, fun _ _ => rfl, rfl⟩

/-- Settles O26: each jump is one write of pc; the fetch after it is in range exactly as its target is. -/
theorem jumpsGoToTheirTargets : Obligations.JumpsGoToTheirTargets := by
  intro nnn s
  have htarget := jumpTarget_toNat nnn (s.getV 0x0#4)
  refine ⟨packNNN_toNat 0x1#4 nnn, packNNN_toNat 0xB#4 nnn,
    ⟨_, exec_jpAddr nnn s, addrOperand_toNat nnn, s.setPc_onlyPc _⟩,
    ⟨_, exec_jpV0Addr nnn s, htarget, s.setPc_onlyPc _, fun hwrap hbeyond => ?_, fun hwrap => ?_⟩⟩
  · have hpc : 4095 ≤ (s.setPc (addrOperand nnn + byteToWord (s.getV 0x0#4))).pc.toNat := htarget ▸ hbeyond
    rw [fetchWord_of_invalid _ hpc hwrap, State.setPc_pc, htarget]
  · exact ⟨_, fetchWord_of_valid _ (.inr hwrap)⟩

/-! ## RET (R100) -/

/-- Settles O28: by the two outcomes of a pop, from a stack with an entry and from an empty one. -/
theorem retPopsIntoPc : Obligations.RetPopsIntoPc := by
  refine fun s => ⟨fun hpos => ?_, fun hempty => ?_⟩
  · have htop : s.stack[s.sp.val - 1]? = some (s.returned hpos).pc := Vector.getElem?_eq_getElem (by omega)
    exact ⟨_, exec_ret_of_pos hpos, rfl, htop, fun _ _ => rfl, fun _ _ => rfl, rfl⟩
  · exact ⟨_, exec_ret_empty hempty, s.raise_pc_onlyRaise .stackUnderflow⟩

/-- Settles O29: the slot RET pops is the one CALL wrote. -/
theorem callThenRetReturns : Obligations.CallThenRetReturns := by
  intro nnn s hroom
  refine ⟨_, exec_callAddr_of_lt nnn s hroom, fun u hstack hsp => ?_⟩
  have hdepth : u.sp.val = s.sp.val + 1 := congrArg Fin.val hsp
  have hpos : 0 < u.sp.val := by omega
  have hpc : some (u.returned hpos).pc = some s.pc := by
    rw [← s.called_stack_top nnn hroom, ← hstack, ← show u.sp.val - 1 = s.sp.val by omega]
    exact (Vector.getElem?_eq_getElem (by omega)).symm
  have hspv : (u.returned hpos).sp.val = s.sp.val := by
    show u.sp.val - 1 = s.sp.val
    omega
  exact ⟨_, exec_ret_of_pos hpos, Option.some.inj hpc, Fin.ext hspv⟩

/-! ## Skips (R103 to R106, R150, R151) -/

/-- A skip adds 2 to pc when taken, modulo 2^16, and changes nothing else (R108). -/
theorem skip_spec {i : Instr} {s : State} {c : Bool} {n : Nat} (he : exec i s = .next (s.skipIf c))
    (hn : n = if c = true then 2 else 0) :
    ∃ t, exec i s = .next t ∧ t.pc.toNat = (s.pc.toNat + n) % 65536 ∧ OnlyPc s t := by
  refine ⟨_, he.trans (congrArg _ (s.skipIf_eq c)), ?_, s.setPc_onlyPc _⟩
  have := s.pc.isLt
  cases c with
  | true => rw [hn]; exact BitVec.toNat_add s.pc 2#16
  | false => rw [hn]; exact (Nat.mod_eq_of_lt this).symm

theorem skipAmount_eq (a b : Byte) :
    (if a.toNat = b.toNat then 2 else 0) = if decide (a = b) = true then 2 else 0 := by
  simp only [BitVec.toNat_inj, decide_eq_true_iff]

theorem skipAmount_ne (a b : Byte) :
    (if a.toNat = b.toNat then 0 else 2) = if decide (a ≠ b) = true then 2 else 0 := by
  simp only [BitVec.toNat_inj, decide_eq_true_iff, ne_eq, ite_not]

/-- Settles O30: both are skips, on the comparison with NN. -/
theorem skipsOnImmediate : Obligations.SkipsOnImmediate :=
  fun x nn _ => ⟨packXNN_toNat_hex 0x3#4 x nn, packXNN_toNat_hex 0x4#4 x nn,
    skip_spec rfl (skipAmount_eq _ _), skip_spec rfl (skipAmount_ne _ _)⟩

/-- Settles O31: both are skips, on the comparison with V[Y]. -/
theorem skipsOnRegisters : Obligations.SkipsOnRegisters :=
  fun _ _ _ => ⟨skip_spec rfl (skipAmount_eq _ _), skip_spec rfl (skipAmount_ne _ _)⟩

theorem keyOperand_toNat (b : Byte) : (keyOperand b).toNat = b.toNat % 16 := by
  simp [keyOperand, BitVec.extractLsb'_toNat]

/-- Settles O51: both are skips, on the level of the key that the low 4 bits name. -/
theorem skipsOnKeys : Obligations.SkipsOnKeys := by
  intro x s down hdown
  have hkey : s.key (keyOperand (s.getV x)) = down := by
    rw [← keyOperand_toNat, State.getElem?_keys] at hdown
    exact Option.some.inj hdown
  exact ⟨skip_spec rfl (by rw [hkey]), skip_spec rfl (by rw [hkey]; cases down <;> rfl)⟩

/-! ## Arithmetic with a flag (R116 to R121) -/

section
variable (s : State) (x : Nibble) (r : Byte) (f : Bool)

theorem writeResultFlag_onlyRegs : OnlyRegs [x, 0xF#4] s (writeResultFlag s x r f) := by
  refine ⟨fun y hy => ?_, fun _ _ => rfl, rfl⟩
  simp only [List.mem_cons, List.not_mem_nil, or_false, not_or] at hy
  rw [writeResultFlag_getV, if_neg hy.2, if_neg hy.1]

theorem flagByte_toNat : (if f = true then 0x01#8 else 0x00#8).toNat = if f = true then 1 else 0 := by
  cases f <;> rfl

theorem writeResultFlag_vf_toNat : ((writeResultFlag s x r f).getV 0xF#4).toNat = if f = true then 1 else 0 := by
  rw [writeResultFlag_getV, if_pos rfl, flagByte_toNat]

/-- The result-then-flag write as the statements about arithmetic state it. -/
theorem writeResultFlag_spec {i : Instr} {flag result : Nat} (he : exec i s = .next (writeResultFlag s x r f))
    (hflag : (if f = true then 1 else 0) = flag) (hresult : r.toNat = result) :
    ∃ t, exec i s = .next t ∧ OnlyRegs [x, 0xF#4] s t ∧ (t.getV 0xF#4).toNat = flag ∧
      (x ≠ 0xF#4 → (t.getV x).toNat = result) := by
  refine ⟨_, he, writeResultFlag_onlyRegs s x r f, (writeResultFlag_vf_toNat s x r f).trans hflag, fun hx => ?_⟩
  rw [writeResultFlag_getV, if_neg hx, if_pos rfl, hresult]

end

/-- A flag computed by a decision is 1 or 0 as the decision goes. -/
theorem flag_decide (p : Prop) [Decidable p] : (if decide p = true then 1 else 0) = if p then 1 else 0 := by
  simp only [decide_eq_true_iff]

/-- Settles O35: the result-then-flag write of the sum and its carry. -/
theorem addSetsCarry : Obligations.AddSetsCarry :=
  fun x _ s => writeResultFlag_spec s x _ _ rfl (flag_decide _) (BitVec.toNat_ofNat _ 8)

theorem sub_toNat (a b : Byte) : (a - b).toNat = (a.toNat + 256 - b.toNat) % 256 := by
  have := b.isLt
  rw [BitVec.toNat_sub]
  congr 1
  omega

/-- Settles O36: the result-then-flag write of the difference and its NOT borrow. -/
theorem subtractSetsNotBorrow : Obligations.SubtractSetsNotBorrow :=
  fun x _ s => ⟨writeResultFlag_spec s x _ _ rfl (flag_decide _) (sub_toNat _ _),
    writeResultFlag_spec s x _ _ rfl (flag_decide _) (sub_toNat _ _)⟩

theorem shrFlag_toNat (b : Byte) : (if shrFlag b = true then 1 else 0) = b.toNat % 2 := by
  rw [shrFlag, BitVec.getLsbD, Nat.testBit_zero, flag_decide]
  split <;> omega

theorem shlFlag_toNat (b : Byte) : (if shlFlag b = true then 1 else 0) = b.toNat / 128 := by
  have := b.isLt
  rw [shlFlag, BitVec.getLsbD, Nat.testBit_eq_decide_div_mod_eq, flag_decide]
  split <;> omega

theorem shiftRight_one_toNat (b : Byte) : (b >>> 1).toNat = b.toNat / 2 := BitVec.toNat_ushiftRight b 1

theorem shiftLeft_one_toNat (b : Byte) : (b <<< 1).toNat = 2 * b.toNat % 256 := by
  rw [BitVec.toNat_shiftLeft, Nat.shiftLeft_eq, Nat.mul_comm]

/-- Settles O37: the result-then-flag write of the source moved by one place and the bit shifted out. -/
theorem shiftsMoveByOne : Obligations.ShiftsMoveByOne := by
  rintro x y s src rfl
  exact ⟨writeResultFlag_spec s x _ _ rfl (shrFlag_toNat _) (shiftRight_one_toNat _),
    writeResultFlag_spec s x _ _ rfl (shlFlag_toNat _) (shiftLeft_one_toNat _)⟩

/-! ## The random byte (R122) -/

theorem exec_rndVxByte (x : Nibble) (nn : Byte) (s : State) :
    exec (.rndVxByte x nn) s = .next (s.draw.2.setV x (Config.randomByte s.draws &&& nn)) := rfl

/-- Settles O38: one write of V[X] with the masked byte; a mask sets no bit. -/
theorem randomByteIsMasked : Obligations.RandomByteIsMasked := by
  intro x nn s
  have hvalue : (s.draw.2.setV x (Config.randomByte s.draws &&& nn)).getV x = Config.randomByte s.draws &&& nn :=
    State.getV_setV_same _ _ _
  refine ⟨_, exec_rndVxByte x nn s, hvalue, fun k hk => ?_, (s.draw.2.setV_onlyRegs x _).1, fun _ _ => rfl, rfl⟩
  rw [hvalue, BitVec.getLsbD_and, Bool.and_eq_true] at hk
  exact hk.2

/-! ## ADD I,Vx and LD F,Vx (R131, R132) -/

theorem exec_addIVx_of_true (x : Nibble) {s : State} (h : s.cfg.addISetsVf = true) : exec (.addIVx x) s =
    .next ((s.setI (BitVec.ofNat 16 (s.i.toNat + (s.getV x).toNat))).setFlag (indexOverflowFlag s.i (s.getV x))) :=
  congrArg Host.Outcome.next (if_pos h)

theorem exec_addIVx_of_false (x : Nibble) {s : State} (h : s.cfg.addISetsVf = false) : exec (.addIVx x) s =
    .next (s.setI (BitVec.ofNat 16 (s.i.toNat + (s.getV x).toNat))) :=
  congrArg Host.Outcome.next (if_neg (by simp [h]))

/-- Settles O40: one write of I, and one of VF under add_i_sets_vf. -/
theorem addIndexAndOverflow : Obligations.AddIndexAndOverflow := by
  intro x s
  cases h : s.cfg.addISetsVf with
  | true =>
    refine ⟨_, exec_addIVx_of_true x h, BitVec.toNat_ofNat _ _,
      fun _ => ⟨⟨fun r hr => ?_, fun _ _ => rfl, rfl⟩, ?_⟩, nofun⟩
    · exact State.getV_setFlag_other _ _ (by simpa using hr)
    · rw [State.getV_setFlag_vf, flagByte_toNat]
      exact flag_decide _
  | false => exact ⟨_, exec_addIVx_of_false x h, BitVec.toNat_ofNat _ _, nofun, fun _ => s.setI_onlyIndex _⟩

theorem exec_ldFVx (x : Nibble) (s : State) :
    exec (.ldFVx x) s = .next (s.setI (BitVec.ofNat 16 (fontBase + 5 * (s.getV x).toNat))) := rfl

/-- Settles O41: one write of I; the glyph of a digit stands at 5 times the digit, in the font area. -/
theorem fontAddressOfDigit : Obligations.FontAddressOfDigit := by
  intro x s
  have haddr : (s.setI (BitVec.ofNat 16 (fontBase + 5 * (s.getV x).toNat))).i.toNat = 5 * (s.getV x).toNat := by
    have := (s.getV x).isLt
    rw [State.setI_i, BitVec.toNat_ofNat, fontBase]
    omega
  refine ⟨_, exec_ldFVx x s, haddr, s.setI_onlyIndex _, fun g r hg => ?_⟩
  rw [haddr, hg, State.setI_read]
  refine ⟨fun hfont => (hfont _ (by omega)).trans (fontByte_glyph s.cfg g r), fun rom hfits hmem => ?_⟩
  have hbelow : 5 * g.val + r.val < progBase := by unfold progBase; omega
  rw [State.read, hmem, Memory.read_ofRom_below hfits hbelow]
  exact fontByte_glyph s.cfg g r

/-! ## Timers and the key wait (R152 to R155) -/

theorem exec_ldVxDt (x : Nibble) (s : State) : exec (.ldVxDt x) s = .next (s.setV x s.dt) := rfl

theorem exec_ldDtVx (x : Nibble) (s : State) : exec (.ldDtVx x) s = .next (s.setDt (s.getV x)) := rfl

theorem exec_ldVxK (x : Nibble) (s : State) : exec (.ldVxK x) s = .next (s.enterWait x) := rfl

/-- Settles O52: a write of V[X], and a write of the delay timer. -/
theorem delayTimerMoves : Obligations.DelayTimerMoves :=
  fun x s => ⟨⟨_, exec_ldVxDt x s, s.getV_setV_same x _, s.setV_onlyRegs x _⟩,
    ⟨_, exec_ldDtVx x s, rfl, fun _ _ => rfl, fun _ _ => rfl, rfl⟩⟩

/-- The level a timer value gives. -/
theorem level_iff (b : Byte) : decide (b ≠ 0#8) = true ↔ b.toNat ≠ 0 := by
  rw [decide_eq_true_iff, ne_eq, ← BitVec.toNat_inj]
  rfl

/-- Settles O53: the report by whether the old level and the new one differ. -/
theorem soundTimerLoadIsReported : Obligations.SoundTimerLoadIsReported := by
  intro x s
  have hnew := level_iff (s.getV x)
  have hold := s.soundActive_iff
  refine ⟨_, exec_ldStVx x s, rfl, fun h0 h1 => ?_, fun h0 h1 => ?_, fun h => ?_, fun _ _ => rfl, fun _ _ => rfl, rfl⟩
  · exact State.soundReport_eq_some.mpr ⟨hnew.mpr h1, fun e => hold.mp e h0⟩
  · exact State.soundReport_eq_some.mpr ⟨by simpa [h1] using hnew, by simp [hold.mpr h0]⟩
  · have hsame : decide (s.getV x ≠ 0#8) = s.soundActive :=
      Bool.eq_iff_iff.mpr (hnew.trans ((not_congr h).symm.trans hold.symm))
    exact if_neg (not_not.mpr hsame)

/-- Settles O54: entering the wait writes the two wait latches and the run state. -/
theorem keyWaitEntered : Obligations.KeyWaitEntered :=
  fun x s => ⟨_, exec_ldVxK x s, rfl, rfl, rfl, fun _ _ => rfl, fun _ _ => rfl, rfl⟩

end Sys2Proof.Machine
end

section
/-!
SUPPORT. Proofs for the statements about BCD, the block store and the block load (43_index_memory.md R133 to R135).
-/

namespace Sys2Proof.Machine

/-! ## Blocks -/

theorem blockAddrs_getElem {a n k : Nat} (hk : k < (blockAddrs a n).length) : (blockAddrs a n)[k] = (a + k) % 4096 := by
  simp [blockAddrs]

/-- A block stored in a canonical memory: byte k at address k of the block. -/
theorem State.read_writeAll_block (s : State) (a : Nat) {n : Nat} {bs : List Byte} (hm : Memory.wf s.cfg s.mem = true)
    (hn : n ≤ 4096) (hl : bs.length = n) {k : Nat} (hk : k < n) :
    (s.writeAll (blockAddrs a n) bs).read ((a + k) % 4096) = bs[k] := by
  have hk' : k < (blockAddrs a n).length := by simpa using hk
  rw [← blockAddrs_getElem hk']
  exact s.read_writeAll _ bs hm (fun _ => blockAddrs_lt) (addrs_nodup a hn) (by simp [hl]) k hk'

/-- A block store changes nothing but the bytes at its addresses. -/
theorem State.writeAll_onlyMem (s : State) (as : List Nat) (bs : List Byte) : OnlyMem as s (s.writeAll as bs) := by
  refine ⟨fun r _ => s.writeAll_getV as bs r, fun a ha => s.read_writeAll_other as bs ha, ?_⟩
  rw [State.writeAll_i]
  exact s.writeAll_frame as bs

/-- A write of I stays inside the frame of a block store. -/
theorem OnlyMem.setI {as : List Nat} {s t : State} (h : OnlyMem as s t) (w : Word) : OnlyMem as s (t.setI w) := by
  obtain ⟨hregs, hmem, hframe⟩ := h
  exact ⟨hregs, hmem, congrArg (State.setI · w) hframe⟩

theorem OnlyMem.bumpI {as : List Nat} {s t : State} (h : OnlyMem as s t) (x : Nibble) :
    OnlyMem as s (Machine.bumpI t x) := by
  rw [bumpI_eq]
  exact h.setI _

theorem OnlyMem.pc_eq {as : List Nat} {s t : State} (h : OnlyMem as s t) : t.pc = s.pc := by rw [h.2.2]

theorem OnlyMem.cfg_eq {as : List Nat} {s t : State} (h : OnlyMem as s t) : t.cfg = s.cfg := by rw [h.2.2]

/-- I rises by x + 1 modulo 2^16 under load_store_increments_i, else it stays (R134). -/
theorem bumpI_i_toNat (s : State) (x : Nibble) : (bumpI s x).i.toNat =
    (s.i.toNat + if s.cfg.loadStoreIncrementsI = true then x.toNat + 1 else 0) % 65536 := by
  rw [bumpI_eq, State.setI_i]
  split
  · exact BitVec.toNat_ofNat ..
  · exact (Nat.mod_eq_of_lt s.i.isLt).symm

/-! ## LD B,Vx (R133) -/

theorem digit_toNat {n : Nat} (h : n < 256) : (BitVec.ofNat 8 n).toNat = n := by
  rw [BitVec.toNat_ofNat, Nat.mod_eq_of_lt h]

/-- Settles O42: a block store of the three digits. -/
theorem bcdDigitsStored : Obligations.BcdDigitsStored := by
  intro x s hm hok
  have hdigit : ∀ k (hk : k < 3), (s.writeAll (blockAddrs s.i.toNat 3) (bcdDigits (s.getV x))).read
      ((s.i.toNat + k) % 4096) = (bcdDigits (s.getV x))[k] := fun k hk =>
    s.read_writeAll_block (n := 3) s.i.toNat hm (by decide) rfl hk
  have hv := (s.getV x).isLt
  refine ⟨_, exec_ldBVx_of_ok hok, ?_, ?_, ?_, s.writeAll_onlyMem _ _, s.writeAll_i _ _⟩
  · exact (congrArg BitVec.toNat (hdigit 0 (by omega))).trans (digit_toNat (by omega))
  · exact (congrArg BitVec.toNat (hdigit 1 (by omega))).trans (digit_toNat (by omega))
  · exact (congrArg BitVec.toNat (hdigit 2 (by omega))).trans (digit_toNat (by omega))

/-! ## LD [I],Vx and LD Vx,[I] (R134, R135) -/

theorem regBlock_length (s : State) (x : Nibble) : (regBlock s x).length = x.toNat + 1 := by simp [regBlock]

theorem regBlock_getElem (s : State) {x k : Nibble} (hk : k.toNat < (regBlock s x).length) :
    (regBlock s x)[k.toNat] = s.getV k := by
  simp [regBlock]

/-- Settles O43: a block store of V[0] to V[X], then the move of I. -/
theorem blockStore : Obligations.BlockStore := by
  intro x s hm hok
  have hx := x.isLt
  refine ⟨_, exec_ldMemVx_of_ok hok, fun k hk => ?_, (s.writeAll_onlyMem _ _).bumpI x, ?_⟩
  · rw [bumpI_read, s.read_writeAll_block s.i.toNat hm (by omega) (regBlock_length s x) (Nat.lt_succ_of_le hk),
      regBlock_getElem]
  · rw [bumpI_i_toNat, State.writeAll_i, State.writeAll_cfg]

/-- Settles O44: a block load into V[0] to V[X], then the move of I. -/
theorem blockLoad : Obligations.BlockLoad := by
  intro x s hok
  have hx := x.isLt
  have hlen : ((blockAddrs s.i.toNat (x.toNat + 1)).map s.read).length = x.toNat + 1 := by simp
  have hfits : 0 + ((blockAddrs s.i.toNat (x.toNat + 1)).map s.read).length ≤ 16 := by omega
  refine ⟨_, exec_ldVxMem_of_ok hok, fun k hk => ?_, fun k hk => ?_, fun a _ => ?_, ?_, ?_⟩
  · rw [bumpI_getV, State.getV_loadRegs _ _ _ hfits, dif_pos (by omega)]
    simp only [List.getElem_map, blockAddrs_getElem, Nat.sub_zero]
  · rw [bumpI_getV, State.getV_loadRegs _ _ _ hfits, dif_neg (by omega)]
  · rw [bumpI_read, State.loadRegs_read]
  · rw [bumpI_eq]
    exact congrArg (State.setI · _) (s.loadRegs_frame 0 _)
  · rw [bumpI_i_toNat, State.loadRegs_i, State.loadRegs_cfg]

/-- Settles O45: the block load reads the bytes the block store wrote. -/
theorem blockStoreThenLoadRestores : Obligations.BlockStoreThenLoadRestores := by
  intro x s hm hok
  obtain ⟨t, ht, hstored, hframe, -⟩ := blockStore x s hm hok
  refine ⟨t, ht, fun u hmem hcfg hi => ?_⟩
  have hcfg' : u.cfg = s.cfg := hcfg.trans hframe.cfg_eq
  have hok' : AccessOk u (x.toNat + 1) := by rwa [AccessOk, hi, hcfg']
  obtain ⟨w, hw, hloaded, -⟩ := blockLoad x u hok'
  refine ⟨w, hw, fun k hk => ?_⟩
  rw [hloaded k hk, hi, State.read_congr hmem hcfg, hstored k hk]

/-- Settles O47: the fetch at I reads the first two bytes of the block. -/
theorem storedCodeIsFetched : Obligations.StoredCodeIsFetched := by
  intro x s hm hok hx hi
  obtain ⟨t, ht, hstored, hframe, -⟩ := blockStore x s hm hok
  have hpc : t.pc = s.i := hframe.pc_eq.trans hi.symm
  have hcfg : t.cfg = s.cfg := hframe.cfg_eq
  have hvalid : t.pc.toNat + 1 ≤ 4095 ∨ t.cfg.addressWrap = true := by
    rw [hpc, hcfg]
    obtain h | h | h := hok
    · omega
    · exact .inl (by omega)
    · exact .inr h
  have h0 : t.read (s.i.toNat % 4096) = s.getV 0x0#4 := hstored 0x0#4 (Nat.zero_le _)
  have h1 : t.read ((s.i.toNat + 1) % 4096) = s.getV 0x1#4 := hstored 0x1#4 hx
  refine ⟨t, ht, _, fetchWord_of_valid t hvalid, ?_⟩
  rw [joinBytes_toNat, hpc, h0, h1]

/-! ## Accesses beyond memory (R42, R46, R163) -/

/-- Raising the first address beyond memory from I on changes nothing else. -/
theorem State.raise_bounds_onlyRaise (s : State) : OnlyRaise .outOfBoundsAddress (max s.i.toNat 4096) s
    (s.raise .outOfBoundsAddress (max s.i.toNat 4096)) :=
  s.raise_onlyRaise _ (by have := s.i.isLt; omega)

/-- Settles O46: each of the four raises, by its cause. -/
theorem accessBeyondMemoryStops : Obligations.AccessBeyondMemoryStops := by
  intro x y n s
  refine ⟨fun h => ⟨_, exec_of_raises (.bcd x h), s.raise_bounds_onlyRaise⟩, fun h => ⟨?_, ?_⟩, fun h => ?_⟩
  · exact ⟨_, exec_of_raises (.store x h), s.raise_bounds_onlyRaise⟩
  · exact ⟨_, exec_of_raises (.load x h), s.raise_bounds_onlyRaise⟩
  · exact ⟨_, exec_of_raises (.draw x y n h), s.raise_bounds_onlyRaise⟩

end Sys2Proof.Machine
end

section
/-!
SUPPORT. Proofs for the display statements (44_display.md).
-/

namespace Sys2Proof.Machine

/-! ## CLS (R140) -/

theorem exec_cls (s : State) : exec .cls s = .next (s.setDisp 0#2048).markDirty := rfl

/-- Settles O48: the blank display has no pixel on. -/
theorem clsBlanksDisplay : Obligations.ClsBlanksDisplay :=
  fun s => ⟨_, exec_cls s, fun _ _ _ _ => BitVec.getLsbD_zero, rfl, fun _ _ => rfl, fun _ _ => rfl, rfl⟩

/-! ## The sprite of DRW Vx,Vy,N (R141) -/

/-- The bytes of the sprite, row by row. -/
def State.spriteRows (s : State) (n : Nibble) : List Byte := (blockAddrs s.i.toNat n.toNat).map s.read

/-- The pixels under the 1 bits of the sprite. -/
def State.spritePixels (s : State) (x y n : Nibble) : List (Nat × Nat) :=
  drawTargets (s.getV x).toNat (s.getV y).toNat 0 (s.spriteRows n)

theorem State.spriteRows_length (s : State) (n : Nibble) : (s.spriteRows n).length = n.toNat := by
  simp [State.spriteRows]

theorem State.spriteRows_length_le (s : State) (n : Nibble) : (s.spriteRows n).length ≤ 32 := by
  have := n.isLt
  rw [State.spriteRows_length]
  omega

theorem State.spriteRows_getElem (s : State) {n : Nibble} {r : Nat} (hr : r < (s.spriteRows n).length) :
    (s.spriteRows n)[r] = s.read ((s.i.toNat + r) % 4096) := by
  simp [State.spriteRows, blockAddrs_getElem]

section
variable (s : State) (x y n : Nibble)

theorem mem_spritePixels (px py : Nat) : (px, py) ∈ s.spritePixels x y n ↔ SpriteCovers s x y n px py := by
  simp only [State.spritePixels, mem_drawTargets, State.spriteRows_getElem, State.spriteRows_length, Prod.mk.injEq,
    Nat.zero_add]
  constructor
  · rintro ⟨r, c, hr, hc, hbit, hpx, hpy⟩
    exact ⟨r, c, hr, hc, hpx, hpy, hbit⟩
  · rintro ⟨r, c, hr, hc, hpx, hpy, hbit⟩
    exact ⟨r, c, hr, hc, hbit, hpx, hpy⟩

theorem SpriteCovers.on_display {s : State} {x y n : Nibble} {px py : Nat} (h : SpriteCovers s x y n px py) :
    px < 64 ∧ py < 32 := by
  obtain ⟨r, c, -, -, rfl, rfl, -⟩ := h
  exact ⟨Nat.mod_lt _ (by decide), Nat.mod_lt _ (by decide)⟩

/-- A draw inverts exactly the pixels of the sprite. -/
theorem drawn_pixel {px : Nat} (py : Nat) (hpx : px < 64) :
    pixelOf (s.drawn x y n).1 px py = (s.pixel px py ^^ decide ((px, py) ∈ s.spritePixels x y n)) := by
  exact (drawRows_spec _ _ _ (s.spriteRows_length_le n) s.disp).1 px py hpx

/-- A draw reports a collision exactly when a pixel of the sprite was on. -/
theorem drawn_flag : (s.drawn x y n).2 = true ↔ ∃ px py, SpriteCovers s x y n px py ∧ s.pixel px py = true := by
  simp only [← mem_spritePixels]
  exact (drawRows_spec _ _ _ (s.spriteRows_length_le n) s.disp).2.trans Prod.exists

/-- A drawn pixel differs from before exactly when the sprite covers it. -/
theorem drawn_pixel_ne_iff {px : Nat} (py : Nat) (hpx : px < 64) :
    pixelOf (s.drawn x y n).1 px py ≠ s.pixel px py ↔ SpriteCovers s x y n px py := by
  rw [drawn_pixel s x y n py hpx, ← mem_spritePixels]
  cases s.pixel px py <;> simp

/-- A collision is a pixel that went from on to off. -/
theorem drawn_flag_iff_cleared : (s.drawn x y n).2 = true ↔
    ∃ px py, px < 64 ∧ py < 32 ∧ s.pixel px py = true ∧ pixelOf (s.drawn x y n).1 px py = false := by
  rw [drawn_flag]
  constructor
  · rintro ⟨px, py, hcovers, hon⟩
    obtain ⟨hpx, hpy⟩ := hcovers.on_display
    have hchanged := (drawn_pixel_ne_iff s x y n py hpx).mpr hcovers
    exact ⟨px, py, hpx, hpy, hon, by simpa [hon] using hchanged⟩
  · rintro ⟨px, py, hpx, -, hon, hoff⟩
    exact ⟨px, py, (drawn_pixel_ne_iff s x y n py hpx).mp (by simp [hon, hoff]), hon⟩

/-- VF after a flag write is 1 exactly when the flag is set. -/
theorem setFlag_vf_eq_one_iff (s : State) (f : Bool) : ((s.setFlag f).getV 0xF#4).toNat = 1 ↔ f = true := by
  rw [State.getV_setFlag_vf, flagByte_toNat]
  cases f <;> simp

theorem setFlag_vf_is_bit (s : State) (f : Bool) :
    ((s.setFlag f).getV 0xF#4).toNat = 1 ∨ ((s.setFlag f).getV 0xF#4).toNat = 0 := by
  rw [State.getV_setFlag_vf, flagByte_toNat]
  cases f <;> simp

end

/-- Settles O49: the inverted pixels are those the sprite covers, the flag the collision. -/
theorem drwXorsCoveredPixels : Obligations.DrwXorsCoveredPixels := by
  intro x y n s hok
  refine ⟨_, exec_drw_of_ok hok, fun px py hpx _ => drawn_pixel_ne_iff s x y n py hpx, setFlag_vf_is_bit _ _,
    (setFlag_vf_eq_one_iff _ _).trans (drawn_flag_iff_cleared s x y n), rfl, fun r hr => ?_, fun _ _ => rfl, rfl⟩
  exact State.getV_setFlag_other _ _ (by simpa using hr)

/-! ## A sprite drawn twice -/

section
variable {s u : State} {x y n : Nibble} (hmem : u.mem = s.mem) (hcfg : u.cfg = s.cfg) (hi : u.i = s.i)
  (hx : u.getV x = s.getV x) (hy : u.getV y = s.getV y)
include hmem hcfg hi hx hy

/-- The sprite is the same in two states with the same memory, I and coordinates. -/
theorem spriteCovers_congr (px py : Nat) : SpriteCovers u x y n px py ↔ SpriteCovers s x y n px py := by
  simp only [SpriteCovers, hx, hy, hi, State.read_congr hmem hcfg]

/-- Drawing it again inverts its pixels back. -/
theorem drawn_twice (hdisp : u.disp = (s.drawn x y n).1) : (u.drawn x y n).1 = s.disp := by
  refine display_ext fun px py hpx _ => ?_
  have hfirst : u.pixel px py = (s.pixel px py ^^ decide ((px, py) ∈ s.spritePixels x y n)) := by
    rw [State.pixel, hdisp, drawn_pixel s x y n py hpx]
  have hsame : decide ((px, py) ∈ u.spritePixels x y n) = decide ((px, py) ∈ s.spritePixels x y n) :=
    decide_eq_decide.mpr (by rw [mem_spritePixels, mem_spritePixels, spriteCovers_congr hmem hcfg hi hx hy])
  rw [drawn_pixel u x y n py hpx, hfirst, hsame, Bool.xor_assoc, Bool.xor_self, Bool.xor_false]
  rfl

/-- The second draw collides exactly when the first turned a pixel on. -/
theorem drawn_twice_flag (hdisp : u.disp = (s.drawn x y n).1) : (u.drawn x y n).2 = true ↔
    ∃ px py, px < 64 ∧ py < 32 ∧ SpriteCovers s x y n px py ∧ s.pixel px py = false := by
  have hflipped : ∀ px py, SpriteCovers s x y n px py → (u.pixel px py = true ↔ s.pixel px py = false) := by
    intro px py hcovers
    have hchanged := (drawn_pixel_ne_iff s x y n py hcovers.on_display.1).mpr hcovers
    rw [State.pixel, hdisp]
    cases hs : s.pixel px py <;> simpa [hs] using hchanged
  simp only [drawn_flag, spriteCovers_congr hmem hcfg hi hx hy]
  constructor
  · rintro ⟨px, py, hcovers, hon⟩
    obtain ⟨hpx, hpy⟩ := hcovers.on_display
    exact ⟨px, py, hpx, hpy, hcovers, (hflipped px py hcovers).mp hon⟩
  · rintro ⟨px, py, -, -, hcovers, hoff⟩
    exact ⟨px, py, hcovers, (hflipped px py hcovers).mpr hoff⟩

end

/-- Settles O50: the second draw inverts the same pixels, and collides where the first turned one on. -/
theorem drwTwiceRestoresDisplay : Obligations.DrwTwiceRestoresDisplay := by
  intro x y n s hok
  refine ⟨_, exec_drw_of_ok hok, fun u hdisp hmem hcfg hi hx hy => ?_⟩
  have hok' : AccessOk u n.toNat := by rwa [AccessOk, hi, hcfg]
  exact ⟨_, exec_drw_of_ok hok', drawn_twice hmem hcfg hi hx hy hdisp,
    (setFlag_vf_eq_one_iff _ _).trans (drawn_twice_flag hmem hcfg hi hx hy hdisp)⟩

end Sys2Proof.Machine
end
